-- ==== Sys2Proof/Word.lean ====
section
/-! DEFINITION. The word types of the SFCB and their plainest arithmetic: byte sequences as numbers (00_scope.md R10-R13). -/

namespace Sys2Proof

/-- A byte of a frame or a buffer. -/
abbrev Byte := BitVec 8

/-- A 16-bit register value, a CRC, or the latched part of a command. -/
abbrev Half := BitVec 16

/-- A bus word (10_state.md: every register is 32 bits wide on the bus). -/
abbrev Word := BitVec 32

/-- `sum(B)` of R12: the natural-number sum of the bytes. -/
def byteSum : List Byte → Nat
  | [] => 0
  | b :: bs => b.toNat + byteSum bs

/-- `le(S)` of R13: the little-endian value, byte i weighted by 256^i. -/
def leValue : List Byte → Nat
  | [] => 0
  | b :: bs => b.toNat + 256 * leValue bs

/-- `be16(hi, lo)` of R13. -/
def be16 (hi lo : Byte) : Nat :=
  hi.toNat * 256 + lo.toNat

end Sys2Proof
end

