-- ==== Sys2Proof/Config.lean ====
section
/-! DEFINITION. The implementation parameters of 00_scope.md R7 and the values the spec leaves free. -/

namespace Sys2Proof

/-- BUF_BYTES: the size of RXB and of TXB in bytes (R7). -/
def Config.bufBytes : Nat := 512

/-- WINDOW_BYTES: the size of the register window in bytes (R7, R70). -/
def Config.windowBytes : Nat := 0x800

/-- The byte offset of RXB[0] in the window (10_state.md R46). -/
def Config.rxBase : Nat := 0x400

/-- The byte offset of TXB[0] in the window (10_state.md R47). -/
def Config.txBase : Nat := 0x600

/-- The value ID always reads (10_state.md R21). -/
def Config.idValue : Word := 0x53430001#32

/-- MBCK_RESET: the reset value of CTRL.MBCK, 1 for CRC16 (R7). -/
def Config.mbckReset : Bool := true

/-- SFCB_BASE: the platform address of the window, OPEN (R7, 93_implementation_defined.md U3). It has no body: nothing can
be proved about its value (DESIGN CHOICE, assumption 6). -/
opaque Config.sfcbBase : Nat

/-- FREE VALUE. What the unwritten buffer byte at window offset `a` holds after the power-on numbered `draw`
(10_state.md R55: "a model takes each byte as a free draw"). No body (DESIGN CHOICE, assumption 5). -/
opaque Config.freeByte : (draw : Nat) → (a : Nat) → Byte

/-- FREE VALUE. By how many turns the OP_LATENCY of the command accepted as draw number `draw` exceeds its minimum of 1
(R7: OPEN, at least 1 clock, per operation; 70_reset_and_hazards.md R246). No body (DESIGN CHOICE, assumption 2). -/
opaque Config.freeLatency : (draw : Nat) → (command : Half) → Nat

/-- OP_LATENCY for one accepted command: at least 1, otherwise free. -/
def Config.opLatency (draw : Nat) (command : Half) : Nat :=
  Config.freeLatency draw command + 1

/-- The parameter of R7 whose value a model takes as an argument: VBMASK (45_status_classifier.md R193). It is plain data
in State that no step writes, so that a statement about every state holds for every table of masks (DESIGN CHOICE,
assumption 4). -/
structure Params where
  /-- VBMASK[0..11] as configured; entries 0 and 3 are overridden by the source's values, see `Params.vbMask`. -/
  vbMasks : Vector Word 12
  deriving DecidableEq, Repr

/-- The defaults of R193: VBMASK[k] = 1 << k. -/
def Params.default : Params where
  vbMasks := #v[0x001#32, 0x002#32, 0x004#32, 0x008#32, 0x010#32, 0x020#32,
    0x040#32, 0x080#32, 0x100#32, 0x200#32, 0x400#32, 0x800#32]

/-- VBMASK[k]. R7: VBMASK[0] = 0x001 and VBMASK[3] = 0x008 are fixed by the source, whatever the parameter holds. -/
def Params.vbMask (p : Params) (k : Fin 12) : Word :=
  if k = 0 then 0x001#32 else if k = 3 then 0x008#32 else p.vbMasks[k]

end Sys2Proof
end

