-- ==== Sys2Proof/Syntax.lean ====
section
/-! DEFINITION. What the host can say to the SFCB: the commands (one constructor per row of the opcode table), the
registers a bus offset names, the descriptor tables' entries, and the host's moves. -/

namespace Sys2Proof

/-- The buffer a CK_* command works on, SEL = ARG[0] (41_checksum.md R118). -/
inductive Sel where
  | rxb   -- SEL = 0: RXB with RXLEN
  | txb   -- SEL = 1: TXB with TXLEN
  deriving DecidableEq, Repr

/-- The sixteen operations of 30_encoding.md R91 with the operands ARG gives them (R92). -/
inductive Instr where
  | nop
  | ckSum8 (sel : Sel)
  | ckCheck8 (sel : Sel)
  | ckAppend8 (sel : Sel)
  | ckCrc16 (sel : Sel)
  | ckCheck16 (sel : Sel)
  | ckAppend16 (sel : Sel)
  | mbBuild
  | mbParse
  | vbBuild (code : Byte)
  | vbMinlen (code : Byte)
  | vbParse (code : Byte)
  | fdDecodeMb
  | fdDecodeVb
  | scClassMb
  | scClassVb
  deriving DecidableEq, Repr

/-- KIND of a field descriptor (10_state.md R48, R50). -/
inductive Kind where
  | none     -- 0: no FieldSpec
  | simple   -- 1: writes its slot
  | cont     -- 2: continuation, accumulated into its slot
  | skip     -- 3: blank or unknown
  deriving DecidableEq, Repr

/-- One field descriptor: FDESC_CTL[i] without its reserved bits, and FDESC_SCALE[i] (10_state.md R48, R49). -/
structure FDesc where
  kind : Kind
  width : BitVec 2
  slot : Fin 32
  offset : BitVec 9
  scale : Half
  deriving DecidableEq, Repr

/-- One Vendor-B command table entry CMDT[j] without its reserved bits (10_state.md R51). -/
structure CmdEntry where
  code : Byte
  minlen : Byte
  f0 : Byte
  valid : Bool
  deriving DecidableEq, Repr

/-- The registers, table words and buffer words that an aligned offset of the window can name (10_state.md R20). -/
inductive Reg where
  | id | ctrl | cmd | status | rxlen | txlen | rxpush | result
  | mbSlave | mbFunc | mbStart | mbCount | vbDest | vbSrc
  | pAddr | pFunc | pSrc | pBcnt | pOff | pLen | pFlen | pstate
  | scIn | scClass | decInfo | fvValid
  | fvNum (k : Fin 32)
  | fvDen (k : Fin 32)
  | fdescCtl (i : Fin 32)
  | fdescScale (i : Fin 32)
  | cmdt (j : Fin 16)
  | rxb (w : Fin 128)   -- the word of RXB[4w .. 4w+3]
  | txb (w : Fin 128)   -- the word of TXB[4w .. 4w+3]
  deriving DecidableEq, Repr

/-- The data of a host write (30_encoding.md R95, R96): a number, a host variable, or a host variable with the byte lanes
that `mask` selects replaced by those of `data` (what `wrbytes` writes back). Host variables are numbered. -/
inductive HostValue where
  | lit (w : Word)
  | var (name : Nat)
  | merge (name : Nat) (mask : BitVec 4) (data : Word)
  deriving DecidableEq, Repr

/-- One move of the host (30_encoding.md R95; 20_memory.md R71, R72; 70_reset_and_hazards.md R230, R247). Offsets are
relative to SFCB_BASE; `lanes` are the byte strobes of the access, 0xF for a full 32-bit access (DESIGN CHOICE, assumptions
3, 14). -/
inductive HostMove where
  /-- a clock in which the host makes no access -/
  | idle
  /-- BusRead(off), the data kept in the host variable `into` (`rd OFFSET -> NAME`) -/
  | read (off : Nat) (lanes : BitVec 4) (into : Nat)
  /-- BusWrite(off, value) (`wr OFFSET, VALUE`) -/
  | write (off : Nat) (lanes : BitVec 4) (value : HostValue)
  /-- `wait`: read STATUS until BUSY = 0 -/
  | wait
  /-- power-on (hardware) reset -/
  | powerOn
  deriving DecidableEq, Repr

end Sys2Proof
end

