-- ==== Sys2Proof/WellFormed.lean ====
section
/-! DEFINITION. Well-formedness: canonical command words, legal bus accesses, and consistent descriptor tables. Every term of
Instr is well formed by its types: a selector is one of two buffers and a command code is 8 bits (30_encoding.md R92). -/

namespace Sys2Proof

/-- The 16 legal OPC values of 30_encoding.md R91, in the table's order. -/
def legalOpcodes : List Byte :=
  [0x00#8, 0x01#8, 0x02#8, 0x03#8, 0x04#8, 0x05#8, 0x06#8, 0x10#8, 0x11#8, 0x20#8, 0x21#8, 0x22#8, 0x30#8, 0x31#8,
    0x40#8, 0x41#8]

/-- The ARG bits an operation uses (R92): ARG[0] for CK_*, all eight for VB_*, none for the others. -/
def usedArgBits (opc : Byte) : Byte :=
  if opc.toNat = 0 then 0#8
  else if opc.toNat ≤ 0x06 then 1#8
  else if 0x20 ≤ opc.toNat ∧ opc.toNat ≤ 0x22 then 0xFF#8
  else 0#8

/-- A command word as software should write it: a legal OPC, every ignored ARG bit 0, bits [31:16] 0 (R90: "software should
write 0"). A word that is not canonical still executes (R93). -/
def CommandWord.wellFormed (w : Word) : Bool :=
  let opc := w.extractLsb' 0 8
  let arg := w.extractLsb' 8 8
  legalOpcodes.contains opc && (arg &&& ~~~ usedArgBits opc) == 0#8 && w.extractLsb' 16 16 == 0#16

/-- An access the SFCB answers with data: a full 32-bit access at an aligned offset inside the window (20_memory.md R71). -/
def legalAccess (off : Nat) (lanes : BitVec 4) : Bool :=
  off % 4 == 0 && lanes == 0xF#4 && off < Config.windowBytes

/-- A host move whose access, if it makes one, lies inside the window. -/
def HostMove.insideWindow : HostMove → Bool
  | .read off _ _ => off < Config.windowBytes
  | .write off _ _ => off < Config.windowBytes
  | .idle | .wait | .powerOn => true

/-- A host move that uses no host variable but those in `known`. -/
def HostMove.varsIn (known : List Nat) : HostMove → Bool
  | .write _ _ (.var n) => known.contains n
  | .write _ _ (.merge n _ _) => known.contains n
  | .write _ _ (.lit _) | .read _ _ _ | .idle | .wait | .powerOn => true

/-- SIMPLE and CONT descriptors are the ones a decode checks and applies (44_field_decoder.md R171). -/
def FDesc.active (d : FDesc) : Bool :=
  match d.kind with
  | .simple | .cont => true
  | .none | .skip => false

/-- 44_field_decoder.md R176: the slot conditions of a consistent table among its first `n` descriptors: every active scale
is non-zero, no slot has two SIMPLE descriptors, and each CONT follows a SIMPLE with the same slot and scale. -/
structure tableConsistent (t : Vector FDesc 32) (n : Nat) : Prop where
  scales : ∀ i : Fin 32, i.val < n → t[i].active = true → t[i].scale ≠ 0#16
  simplesDiffer : ∀ i j : Fin 32, i < j → j.val < n → t[i].kind = .simple → t[j].kind = .simple → t[i].slot ≠ t[j].slot
  contsFollow : ∀ j : Fin 32, j.val < n → t[j].kind = .cont →
    ∃ i : Fin 32, i < j ∧ t[i].kind = .simple ∧ t[i].slot = t[j].slot ∧ t[i].scale = t[j].scale

/-- 44_field_decoder.md R176, the Vendor-B part: every active descriptor has a width and lies within `len` data bytes. -/
def fieldsWithin (t : Vector FDesc 32) (len : Nat) : Prop :=
  ∀ i : Fin 32, t[i].active = true → t[i].width ≠ 0#2 ∧ t[i].offset.toNat + t[i].width.toNat ≤ len

end Sys2Proof
end

