-- ==== Sys2Proof/Decode.lean ====
section
/-! DEFINITION. The command word's decoder and encoder, from 30_encoding.md R90-R94. -/

namespace Sys2Proof

/-- Why a command word or a byte sequence is no instruction. -/
inductive DecodeError where
  /-- fewer than the four bytes of a command word (R90: a command is always exactly one word) -/
  | truncated (have_ : Nat)
  /-- one of the 240 OPC values outside R91 (R93) -/
  | illegalOpcode (opc : Byte)
  deriving DecidableEq, Repr

/-- SEL = ARG[0]; ARG[7:1] is ignored (R92, 41_checksum.md R118). -/
def selOfArg (arg : Byte) : Sel :=
  if arg.getLsbD 0 then .txb else .rxb

/-- One row of the opcode map: the OPC value that is "the field's entire match", and what it makes of ARG. -/
structure OpcodeRow where
  opc : Byte
  build : Byte → Instr

/-- The opcode map of R91 with the operand use of R92. -/
def opcodeMap : List OpcodeRow :=
  [⟨0x00#8, fun _ => .nop⟩,
   ⟨0x01#8, fun arg => .ckSum8 (selOfArg arg)⟩,
   ⟨0x02#8, fun arg => .ckCheck8 (selOfArg arg)⟩,
   ⟨0x03#8, fun arg => .ckAppend8 (selOfArg arg)⟩,
   ⟨0x04#8, fun arg => .ckCrc16 (selOfArg arg)⟩,
   ⟨0x05#8, fun arg => .ckCheck16 (selOfArg arg)⟩,
   ⟨0x06#8, fun arg => .ckAppend16 (selOfArg arg)⟩,
   ⟨0x10#8, fun _ => .mbBuild⟩,
   ⟨0x11#8, fun _ => .mbParse⟩,
   ⟨0x20#8, fun arg => .vbBuild arg⟩,
   ⟨0x21#8, fun arg => .vbMinlen arg⟩,
   ⟨0x22#8, fun arg => .vbParse arg⟩,
   ⟨0x30#8, fun _ => .fdDecodeMb⟩,
   ⟨0x31#8, fun _ => .fdDecodeVb⟩,
   ⟨0x40#8, fun _ => .scClassMb⟩,
   ⟨0x41#8, fun _ => .scClassVb⟩]

/-- Decode the 16 latched bits of a command, PCMD: OPC in [7:0], ARG in [15:8] (10_state.md R23, R54). -/
def decodeLatch (p : Half) : Except DecodeError Instr :=
  let opc : Byte := p.extractLsb' 0 8
  match opcodeMap.find? (fun row => row.opc == opc) with
  | some row => .ok (row.build (p.extractLsb' 8 8))
  | none => .error (.illegalOpcode opc)

/-- Decode a command word; bits [31:16] are ignored (R90). -/
def decodeCommand (w : Word) : Except DecodeError Instr :=
  decodeLatch (w.setWidth 16)

/-- The bus word whose byte lanes are these four bytes, byte 0 in bits [7:0] (20_memory.md R70). -/
def wordOfLanes (b0 b1 b2 b3 : Byte) : Word :=
  b3 ++ b2 ++ b1 ++ b0

/-- Byte lane k of a bus word (20_memory.md R70). -/
def laneOf (w : Word) (k : Nat) : Byte :=
  w.extractLsb' (8 * k) 8

/-- Decode the first command of a byte sequence, each word in its byte-lane order, and give the bytes after it. -/
def decodeBytes : List Byte → Except DecodeError (Instr × List Byte)
  | b0 :: b1 :: b2 :: b3 :: rest =>
    match decodeCommand (wordOfLanes b0 b1 b2 b3) with
    | .ok i => .ok (i, rest)
    | .error e => .error e
  | bs => .error (.truncated bs.length)

/-- ARG for a buffer selector (R92). -/
def argOfSel : Sel → Byte
  | .rxb => 0#8
  | .txb => 1#8

/-- The OPC value of an operation (R91). -/
def opcOf : Instr → Byte
  | .nop => 0x00#8
  | .ckSum8 _ => 0x01#8
  | .ckCheck8 _ => 0x02#8
  | .ckAppend8 _ => 0x03#8
  | .ckCrc16 _ => 0x04#8
  | .ckCheck16 _ => 0x05#8
  | .ckAppend16 _ => 0x06#8
  | .mbBuild => 0x10#8
  | .mbParse => 0x11#8
  | .vbBuild _ => 0x20#8
  | .vbMinlen _ => 0x21#8
  | .vbParse _ => 0x22#8
  | .fdDecodeMb => 0x30#8
  | .fdDecodeVb => 0x31#8
  | .scClassMb => 0x40#8
  | .scClassVb => 0x41#8

/-- The ARG value of an operation, its ignored bits 0 (R92). -/
def argOf : Instr → Byte
  | .ckSum8 sel | .ckCheck8 sel | .ckAppend8 sel | .ckCrc16 sel | .ckCheck16 sel | .ckAppend16 sel => argOfSel sel
  | .vbBuild c | .vbMinlen c | .vbParse c => c
  | .nop | .mbBuild | .mbParse | .fdDecodeMb | .fdDecodeVb | .scClassMb | .scClassVb => 0#8

/-- `CMD = OPC | (ARG << 8)` (R94). -/
def commandWord (opc arg : Byte) : Word :=
  opc.setWidth 32 ||| (arg.setWidth 32 <<< 8)

/-- The canonical command word of an operation. -/
def encode (i : Instr) : Word :=
  commandWord (opcOf i) (argOf i)

/-- The instruction the decoder reads from an opcode-table row's bits: `w` in its low `nbits` bits, zeros above, laid out
as the four byte lanes of one command word. -/
def decodeTableWord (nbits w : Nat) : Option Instr :=
  let v : Word := BitVec.ofNat 32 (w % 2 ^ nbits)
  match decodeBytes [laneOf v 0, laneOf v 1, laneOf v 2, laneOf v 3] with
  | .ok (i, _) => some i
  | .error _ => none

end Sys2Proof
end

