-- ==== Sys2Proof/Machine/State.lean ====
section
/-! DEFINITION. The state of the SFCB as plain data (10_state.md), why a step can stop, and the state after reset. -/

namespace Sys2Proof.Machine

/-- The completion codes of STATUS.ERR (60_exceptions.md R211). Codes 9-15 are never produced (R211). -/
inductive Err where
  | none                 -- 0
  | noResponse           -- 1
  | incomplete           -- 2
  | tooShort             -- 3
  | checksumMismatch     -- 4
  | decodeInconsistency  -- 5
  | illegalOpcode        -- 6
  | noPayload            -- 7
  | bufferOverflow       -- 8
  deriving DecidableEq, Repr

/-- The DecodeInconsistency sub-reasons of DEC_INFO.REASON (44_field_decoder.md R171). Code 7 is never produced. -/
inductive Reason where
  | none             -- 0
  | contNoPrior      -- 1
  | simpleDuplicate  -- 2
  | scaleMismatch    -- 3
  | outOfRange       -- 4
  | badWidth         -- 5
  | badScale         -- 6
  deriving DecidableEq, Repr

/-- PSTATE.PV, the payload-valid latch (10_state.md R37). The value 3 never occurs. -/
inductive Pv where
  | none     -- 0: no valid payload
  | modbus   -- 1: a Modbus-style payload
  | vendorB  -- 2: a Vendor-B data payload
  deriving DecidableEq, Repr

/-- The class codes of SC_CLASS (45_status_classifier.md R192). Other values are never produced. -/
inductive ClassCode where
  | none               -- 0x00: no classification yet
  | notRunning         -- 0x01
  | inOperation        -- 0x02
  | cond (k : Fin 12)  -- 0x10 + k: the k-th Vendor-B condition of R193
  | unknown            -- 0xFF
  deriving DecidableEq, Repr

/-- The engine's control state (10_state.md R25, R40, R54): idle (BUSY = 0), or running (BUSY = 1) the command latched in
PCMD with `left` turns to go until its completion, the completion's own turn counted. -/
inductive Engine where
  | idle
  | running (pcmd : Half) (left : Nat)
  deriving DecidableEq, Repr

/-- The parse result registers P_* (10_state.md R36). -/
structure ParseRegs where
  addr : Half
  func : Byte
  src : Half
  bcnt : BitVec 10
  off : BitVec 10
  len : BitVec 10
  flen : BitVec 10
  deriving DecidableEq, Repr

/-- DEC_INFO (10_state.md R41). -/
structure DecInfo where
  reason : Reason
  index : BitVec 5
  odd : Bool
  trunc : Bool
  deriving DecidableEq, Repr

/-- One field value slot: its FV_VALID bit, FV_NUM and FV_DEN (10_state.md R42-R45). -/
structure Slot where
  valid : Bool
  num : Word
  den : Half
  deriving DecidableEq, Repr

/-- RXLEN and TXLEN hold 0..512 (10_state.md R26, R27). -/
abbrev BufLen := Fin 513

/-- The buffer bytes that something has written: byte offsets of the window, strictly rising. -/
abbrev Memory := List Host.Cell

/-- The response of a bus access (20_memory.md R72). -/
inductive Resp where
  | okay
  | error
  deriving DecidableEq, Repr

/-- What the SFCB answered to the host's last bus access (20_memory.md R72). -/
inductive BusReply where
  | readData (data : Word) (resp : Resp)
  | written (resp : Resp)
  deriving DecidableEq, Repr

/-- Everything the spec gives the machine, and the model's own fields (from `params` on). -/
structure State where
  /-- CTRL.IE (R22) -/
  ie : Bool
  /-- CTRL.MBCK (R22): false for ADD8, true for CRC16 -/
  mbck : Bool
  /-- CMD[15:0], the last accepted command (R23) -/
  cmd : Half
  /-- STATUS.BUSY, PCMD and the completion countdown (R24, R40, R54) -/
  engine : Engine
  /-- STATUS.DONE (R24) -/
  done : Bool
  /-- STATUS.OVR (R24) -/
  ovr : Bool
  /-- STATUS.WBZ (R24) -/
  wbz : Bool
  /-- STATUS.RXOVF (R24) -/
  rxovf : Bool
  /-- STATUS.RES (R24) -/
  res : Bool
  /-- STATUS.ERR (R24), which also gives STATUS.RETRY -/
  err : Err
  /-- RESULT (R29) -/
  result : Word
  /-- RXLEN (R26) -/
  rxlen : BufLen
  /-- TXLEN (R27) -/
  txlen : BufLen
  /-- MB_SLAVE (R30) -/
  mbSlave : Byte
  /-- MB_FUNC (R31) -/
  mbFunc : Byte
  /-- MB_START (R32) -/
  mbStart : Half
  /-- MB_COUNT (R33) -/
  mbCount : Half
  /-- VB_DEST (R34) -/
  vbDest : Half
  /-- VB_SRC (R35) -/
  vbSrc : Half
  /-- P_ADDR .. P_FLEN (R36) -/
  parse : ParseRegs
  /-- PSTATE.PV (R37) -/
  pv : Pv
  /-- SC_IN (R39) -/
  scIn : Word
  /-- SC_CLASS (R39) -/
  scClass : ClassCode
  /-- DEC_INFO (R41) -/
  decInfo : DecInfo
  /-- FV_VALID, FV_NUM[k], FV_DEN[k] (R42-R44) -/
  slots : Vector Slot 32
  /-- FDESC_CTL[i], FDESC_SCALE[i] (R48, R49) -/
  fdesc : Vector FDesc 32
  /-- CMDT[j] (R51) -/
  cmdt : Vector CmdEntry 16
  /-- the written bytes of RXB and TXB (R46, R47) -/
  mem : Memory
  /-- MODEL: the parameter VBMASK (00_scope.md R7), written by no step -/
  params : Params
  /-- MODEL: the draw that the unwritten buffer bytes come from -/
  bufDraw : Nat
  /-- MODEL: the number of the next free draw -/
  draws : Nat
  /-- MODEL: the host program's variables (30_encoding.md R95), by rising number -/
  vars : List (Nat × Word)
  /-- MODEL: the host's moves that are still to come, the next one first -/
  host : List HostMove
  /-- MODEL: the answer to the host's last bus access -/
  reply : Option BusReply
  deriving DecidableEq, Repr

/-- Why a step stops. No operation of the SFCB stops (60_exceptions.md R210): only a move of the HOST does, and only where
the spec gives it no meaning. -/
inductive Fault where
  /-- Raised by a host bus access at an offset at or above WINDOW_BYTES, to which "the SFCB gives … no meaning"
  (20_memory.md R73). Safe: the model stops where a platform might go on (DESIGN CHOICE, assumption 8). -/
  | outsideWindow (off : Nat)
  /-- Raised by a host write whose value is a host variable that no read has set (30_encoding.md R95 gives a variable its
  value only by `rd`). Safe: no claim is made about such a host program (DESIGN CHOICE, assumption 7). -/
  | unsetVariable (name : Nat)
  deriving DecidableEq, Repr

/-- Why the model has no meaning for an instruction. -/
inductive Refusal where
  /-- Raised by no arm: every operation of the opcode table has its meaning. Safe: it would stop the run. -/
  | notModelled (mnemonic : String)
  deriving DecidableEq, Repr

/-- P_* after reset and after a failed parse: all 0 (R36). -/
def ParseRegs.zero : ParseRegs :=
  ⟨0#16, 0#8, 0#16, 0#10, 0#10, 0#10, 0#10⟩

/-- DEC_INFO = 0. -/
def DecInfo.zero : DecInfo :=
  ⟨.none, 0#5, false, false⟩

/-- An empty slot: not valid, both registers 0 (R45). -/
def Slot.empty : Slot :=
  ⟨false, 0#32, 0#16⟩

/-- A descriptor at reset: KIND = NONE, everything 0 (R52). -/
def resetFDesc : FDesc :=
  ⟨.none, 0#2, 0, 0#9, 0#16⟩

/-- A command table entry at reset: V = 0, everything 0 (R52). -/
def resetCmdEntry : CmdEntry :=
  ⟨0#8, 0#8, 0#8, false⟩

/-- The machine at the end of power-on reset (70_reset_and_hazards.md R230, R232). No buffer byte is written yet, so each
reads as a free draw (R55); the host has no move to come. -/
def State.reset : State where
  ie := false
  mbck := Config.mbckReset
  cmd := 0#16
  engine := .idle
  done := false
  ovr := false
  wbz := false
  rxovf := false
  res := false
  err := .none
  result := 0#32
  rxlen := 0
  txlen := 0
  mbSlave := 0#8
  mbFunc := 0#8
  mbStart := 0#16
  mbCount := 0#16
  vbDest := 0#16
  vbSrc := 0#16
  parse := ParseRegs.zero
  pv := .none
  scIn := 0#32
  scClass := .none
  decInfo := DecInfo.zero
  slots := Vector.replicate 32 Slot.empty
  fdesc := Vector.replicate 32 resetFDesc
  cmdt := Vector.replicate 16 resetCmdEntry
  mem := []
  params := Params.default
  bufDraw := 0
  draws := 1
  vars := []
  host := []
  reply := none

end Sys2Proof.Machine
end

