-- ==== Sys2Proof/Machine/Ops.lean ====
section
/-! DEFINITION. The named operations over the buffers and the registers: byte access, completion (the one way an operation
ends), acknowledgement, acceptance of a command, and the two resets. -/

namespace Sys2Proof.Machine

/-- The value kept under key `a`, if any. -/
def lookupAt {α : Type} : List (Nat × α) → Nat → Option α
  | [], _ => none
  | (k, v) :: rest, a => if k = a then some v else lookupAt rest a

/-- Keep `v` under key `a`, in place, so that the keys stay strictly rising. -/
def insertAt {α : Type} : List (Nat × α) → Nat → α → List (Nat × α)
  | [], a, v => [(a, v)]
  | (k, w) :: rest, a, v =>
    if a < k then (a, v) :: (k, w) :: rest
    else if a = k then (a, v) :: rest
    else (k, w) :: insertAt rest a v

/-- The keys are strictly rising, from `lo` on. -/
def keysRising {α : Type} (lo : Nat) : List (Nat × α) → Bool
  | [] => true
  | (k, _) :: rest => decide (lo ≤ k) && keysRising (k + 1) rest

/-- The canonical form of the buffer memory: byte offsets of RXB and TXB (0x400-0x7FF), strictly rising. An unlisted byte
holds no value that the model knows, so that no listed value is redundant (DESIGN CHOICE, assumption 5). -/
def Memory.wf (m : Memory) : Bool :=
  keysRising Config.rxBase m && m.all (fun c => decide (c.1 < Config.windowBytes))

/-- Write bytes at rising offsets from `a` on. -/
def writeCells (m : Memory) (a : Nat) : List Byte → Memory
  | [] => m
  | b :: bs => writeCells (insertAt m a b) (a + 1) bs

/-- The buffer byte at window offset `a`: the last byte written there, or the free draw of the last power-on (R55). -/
def State.byteAt (s : State) (a : Nat) : Byte :=
  (lookupAt s.mem a).getD (Config.freeByte s.bufDraw a)

/-- `RXB[n]` (00_scope.md R13). -/
def State.rxByte (s : State) (n : Nat) : Byte :=
  s.byteAt (Config.rxBase + n)

/-- `TXB[n]` (00_scope.md R13). -/
def State.txByte (s : State) (n : Nat) : Byte :=
  s.byteAt (Config.txBase + n)

/-- The `n` bytes from window offset `a` on: `MemRead` (00_scope.md R13). -/
def State.readBytes (s : State) (a : Nat) : Nat → List Byte
  | 0 => []
  | n + 1 => s.byteAt a :: s.readBytes (a + 1) n

/-- Write bytes from window offset `a` on: `MemWrite` (00_scope.md R13). -/
def State.writeBytes (s : State) (a : Nat) (bs : List Byte) : State :=
  { s with mem := writeCells s.mem a bs }

/-- Completion, the one way an operation ends: `finish(err, res, result)` of 00_scope.md R13 with BUSY <- 0 and DONE <- 1
(10_state.md R25, 60_exceptions.md R216). -/
def State.finish (s : State) (err : Err) (res : Bool) (result : Word) : State :=
  { s with engine := .idle, done := true, err := err, res := res, result := result }

/-- `raise E`: `finish(E, 0, 0)` (00_scope.md R13). -/
def State.raise (s : State) (err : Err) : State :=
  s.finish err false 0#32

/-- Acknowledgement, the counterpart of completion: DONE <- 0 lowers IRQ (60_exceptions.md R218). -/
def State.acknowledge (s : State) : State :=
  { s with done := false }

/-- PV <- 0 (10_state.md R38). -/
def State.clearPv (s : State) : State :=
  { s with pv := .none }

/-- A parse that succeeded: the P_* registers and PV (10_state.md R36, R37). -/
def State.setParse (s : State) (p : ParseRegs) (pv : Pv) : State :=
  { s with parse := p, pv := pv }

/-- `fail(E, r)` of the parses: every P_* register and PV to 0, then finish(E, 0, r) (42 R131, 43 R153). -/
def State.failParse (s : State) (err : Err) (result : Word) : State :=
  (s.setParse ParseRegs.zero .none).finish err false result

/-- Acceptance of a command (10_state.md R25(1)): PCMD, CMD and BUSY; the countdown is one free draw of OP_LATENCY. DONE is
not cleared. -/
def State.accept (s : State) (w : Word) : State :=
  let p : Half := w.setWidth 16
  { s with cmd := p, engine := .running p (Config.opLatency s.draws p), draws := s.draws + 1 }

/-- One turn passes for a running operation (10_state.md R40). -/
def State.tick (s : State) : State :=
  match s.engine with
  | .idle => s
  | .running p left => { s with engine := .running p (left - 1) }

/-- Soft reset (70_reset_and_hazards.md R231): every register and table to its reset value, the operation in flight
discarded, RXB and TXB unchanged. The host, its variables and the parameters are no state of the block (DEDUCED,
assumption 12). -/
def State.softReset (s : State) : State :=
  { State.reset with
    mem := s.mem, params := s.params, bufDraw := s.bufDraw, draws := s.draws, vars := s.vars, host := s.host,
    reply := s.reply }

/-- Power-on reset of a running machine (R230): as `State.reset`, the buffer bytes a fresh draw each (DESIGN CHOICE,
assumption 10). -/
def State.powerCycle (s : State) : State :=
  { State.reset with
    params := s.params, bufDraw := s.draws, draws := s.draws + 1, vars := s.vars, host := s.host }

/-- The completion of an illegal OPC (30_encoding.md R93, 60_exceptions.md R217): `finish(ILLEGAL_OPCODE, 0, 0)`. -/
def State.completeIllegal (s : State) : State :=
  s.raise .illegalOpcode

end Sys2Proof.Machine
end

