-- ==== Sys2Proof/Machine/Operands.lean ====
section
/-! DEFINITION. The operands of the operations: buffer selection, length registers, the Vendor-B command table, and the byte
lanes of buffer words. -/

namespace Sys2Proof.Machine

/-- The window offset of the selected buffer's byte 0 (41_checksum.md R118). -/
def selBase : Sel → Nat
  | .rxb => Config.rxBase
  | .txb => Config.txBase

/-- The selected buffer's length register (R118). -/
def State.selLen (s : State) : Sel → BufLen
  | .rxb => s.rxlen
  | .txb => s.txlen

/-- Byte `n` of the selected buffer. -/
def State.selByte (s : State) (sel : Sel) (n : Nat) : Byte :=
  s.byteAt (selBase sel + n)

/-- `MemRead(buf, 0, n)` of the selected buffer. -/
def State.selBytes (s : State) (sel : Sel) (n : Nat) : List Byte :=
  s.readBytes (selBase sel) n

/-- The legal length nearest to `n` from below: `min(n, 512)` (10_state.md R26, R27). -/
def clampLen (n : Nat) : BufLen :=
  ⟨min n 512, by omega⟩

/-- What a write of data `d` to RXLEN or TXLEN stores: `min(d[9:0], 512)` (R26, R27). -/
def lenOfData (d : Word) : BufLen :=
  clampLen (d.extractLsb' 0 10).toNat

/-- Set the selected buffer's length register. -/
def State.setSelLen (s : State) (sel : Sel) (n : BufLen) : State :=
  match sel with
  | .rxb => { s with rxlen := n }
  | .txb => { s with txlen := n }

/-- Append bytes to the selected buffer at its length and raise the length; a change of RXB clears PV (10_state.md R38). -/
def State.append (s : State) (sel : Sel) (bs : List Byte) : State :=
  let n := (s.selLen sel).val
  let t := (s.writeBytes (selBase sel + n) bs).setSelLen sel (clampLen (n + bs.length))
  match sel with
  | .rxb => t.clearPv
  | .txb => t

/-- `hit(c)`: the valid CMDT entry of least index whose CODE is `c` (43_frame_vendorb.md R152). -/
def State.cmdHit (s : State) (c : Byte) : Option CmdEntry :=
  s.cmdt.toList.find? (fun e => e.valid && e.code == c)

/-- `minlen(c)`: the table's minimum response length, 1 where the table has no entry (R152). -/
def State.minLen (s : State) (c : Byte) : Nat :=
  match s.cmdHit c with
  | some e => e.minlen.toNat
  | none => 1

/-- `filler0(c)`: the first filler byte, 0 where the table has no entry (R152). -/
def State.filler0 (s : State) (c : Byte) : Byte :=
  match s.cmdHit c with
  | some e => e.f0
  | none => 0#8

/-- The bus word of the four buffer bytes from window offset `a` on (20_memory.md R70). -/
def State.wordAt (s : State) (a : Nat) : Word :=
  wordOfLanes (s.byteAt a) (s.byteAt (a + 1)) (s.byteAt (a + 2)) (s.byteAt (a + 3))

/-- The four bytes of a bus word, lane 0 first (20_memory.md R70). -/
def lanesOf (w : Word) : List Byte :=
  [laneOf w 0, laneOf w 1, laneOf w 2, laneOf w 3]

/-- Replace the byte lanes that `mask` selects in `old` by those of `data` (what `wrbytes` writes, 30_encoding.md R96). -/
def mergeLanes (old : Word) (mask : BitVec 4) (data : Word) : Word :=
  let pick (k : Nat) : Byte := if mask.getLsbD k then laneOf data k else laneOf old k
  wordOfLanes (pick 0) (pick 1) (pick 2) (pick 3)

/-- The value of a host write's data, a fault for a variable no read has set (DESIGN CHOICE, assumption 7). -/
def State.hostValue (s : State) : HostValue → Except Fault Word
  | .lit w => .ok w
  | .var n =>
    match lookupAt s.vars n with
    | some w => .ok w
    | none => .error (.unsetVariable n)
  | .merge n mask data =>
    match lookupAt s.vars n with
    | some w => .ok (mergeLanes w mask data)
    | none => .error (.unsetVariable n)

end Sys2Proof.Machine
end

