-- ==== Sys2Proof/Machine/Checksum.lean ====
section
/-! DEFINITION. The checksum functions and the CK_* operations (41_checksum.md). -/

namespace Sys2Proof.Machine

/-- ADD8: the low 8 bits of the arithmetic sum (R110). -/
def add8 (bs : List Byte) : Byte :=
  BitVec.ofNat 8 (byteSum bs)

/-- One of the eight bit steps of CRC-16/MODBUS (R114). -/
def crcBit (c : Half) : Half :=
  if c.getLsbD 0 then (c >>> 1) ^^^ 0xA001#16 else c >>> 1

/-- `n` bit steps. -/
def crcBits : Nat → Half → Half
  | 0, c => c
  | n + 1, c => crcBits n (crcBit c)

/-- One byte: XOR it in, then eight bit steps (R114). -/
def crcByte (c : Half) (b : Byte) : Half :=
  crcBits 8 (c ^^^ b.setWidth 16)

/-- CRC16: initial value 0xFFFF, bytes first to last, no final XOR (R114). -/
def crc16 (bs : List Byte) : Half :=
  bs.foldl crcByte 0xFFFF#16

/-- The CRC16 trailer's bytes, low byte first (20_memory.md R80). -/
def crcTrailer (c : Half) : List Byte :=
  [c.extractLsb' 0 8, c.extractLsb' 8 8]

/-- CK_SUM8 (R111). -/
def execCkSum8 (sel : Sel) (s : State) : Host.Outcome State Fault Refusal :=
  let n := (s.selLen sel).val
  let sum := if n = 0 then 0#8 else add8 (s.selBytes sel (n - 1))
  .next (s.finish .none true (sum.setWidth 32))

/-- CK_CHECK8 (R112). -/
def execCkCheck8 (sel : Sel) (s : State) : Host.Outcome State Fault Refusal :=
  let n := (s.selLen sel).val
  if n = 0 then .next (s.raise .noResponse)
  else
    let sum := add8 (s.selBytes sel (n - 1))
    .next (s.finish .none (s.selByte sel (n - 1) == sum) (sum.setWidth 32))

/-- CK_APPEND8 (R113). -/
def execCkAppend8 (sel : Sel) (s : State) : Host.Outcome State Fault Refusal :=
  let n := (s.selLen sel).val
  if n = Config.bufBytes then .next (s.raise .bufferOverflow)
  else
    let sum := add8 (s.selBytes sel n)
    .next ((s.append sel [sum]).finish .none true (sum.setWidth 32))

/-- CK_CRC16 (R115). -/
def execCkCrc16 (sel : Sel) (s : State) : Host.Outcome State Fault Refusal :=
  let n := (s.selLen sel).val
  let m := if 2 ≤ n then n - 2 else 0
  let c := crc16 (s.selBytes sel m)
  .next (s.finish .none true (c.setWidth 32))

/-- CK_CHECK16 (R116). -/
def execCkCheck16 (sel : Sel) (s : State) : Host.Outcome State Fault Refusal :=
  let n := (s.selLen sel).val
  if n = 0 then .next (s.raise .noResponse)
  else if n = 1 then .next (s.raise .incomplete)
  else
    let c := crc16 (s.selBytes sel (n - 2))
    let ok := s.selByte sel (n - 2) == c.extractLsb' 0 8 && s.selByte sel (n - 1) == c.extractLsb' 8 8
    .next (s.finish .none ok (c.setWidth 32))

/-- CK_APPEND16 (R117). -/
def execCkAppend16 (sel : Sel) (s : State) : Host.Outcome State Fault Refusal :=
  let n := (s.selLen sel).val
  if Config.bufBytes - 2 < n then .next (s.raise .bufferOverflow)
  else
    let c := crc16 (s.selBytes sel n)
    .next ((s.append sel (crcTrailer c)).finish .none true (c.setWidth 32))

end Sys2Proof.Machine
end

