-- ==== Sys2Proof/Machine/Flags.lean ====
section
/-! DEFINITION. STATUS, CTRL, DEC_INFO and the table words as the bus sees them, the retry flag and the IRQ output. -/

namespace Sys2Proof.Machine

/-- A value placed at bit `lo` of a bus word. -/
def placed {n : Nat} (v : BitVec n) (lo : Nat) : Word :=
  v.setWidth 32 <<< lo

/-- One flag placed at bit `lo` of a bus word. -/
def flagAt (b : Bool) (lo : Nat) : Word :=
  placed (BitVec.ofBool b) lo

/-- The numbers of the error codes (60_exceptions.md R211). -/
def errCode : Err → BitVec 4
  | .none => 0#4
  | .noResponse => 1#4
  | .incomplete => 2#4
  | .tooShort => 3#4
  | .checksumMismatch => 4#4
  | .decodeInconsistency => 5#4
  | .illegalOpcode => 6#4
  | .noPayload => 7#4
  | .bufferOverflow => 8#4

/-- STATUS.RETRY, a pure function of ERR: 1 exactly for codes 1 to 4 (60_exceptions.md R213). -/
def retryOf : Err → Bool
  | .noResponse | .incomplete | .tooShort | .checksumMismatch => true
  | .none | .decodeInconsistency | .illegalOpcode | .noPayload | .bufferOverflow => false

/-- STATUS.BUSY: 1 from acceptance to completion (10_state.md R24, R25). -/
def State.busy (s : State) : Bool :=
  match s.engine with
  | .idle => false
  | .running _ _ => true

/-- STATUS as read (10_state.md R24). -/
def State.statusWord (s : State) : Word :=
  flagAt s.busy 0 ||| flagAt s.done 1 ||| flagAt s.ovr 2 ||| flagAt s.wbz 3 ||| flagAt s.rxovf 4 ||| flagAt s.res 5 |||
    flagAt (retryOf s.err) 6 ||| placed (errCode s.err) 8

/-- CTRL as read: IE, MBCK, and SRST reads 0 (R22). -/
def State.ctrlWord (s : State) : Word :=
  flagAt s.ie 0 ||| flagAt s.mbck 1

/-- The IRQ output: CTRL.IE AND STATUS.DONE (10_state.md R53, 60_exceptions.md R214). -/
def State.irq (s : State) : Bool :=
  s.ie && s.done

/-- A write to STATUS clears every W1C bit whose data bit is 1 and ignores the rest (R24). -/
def State.writeStatus (s : State) (d : Word) : State :=
  let t := if d.getLsbD 1 then s.acknowledge else s
  { t with
    ovr := t.ovr && !d.getLsbD 2
    wbz := t.wbz && !d.getLsbD 3
    rxovf := t.rxovf && !d.getLsbD 4 }

/-- PSTATE.PV as a number (R37). -/
def pvCode : Pv → BitVec 2
  | .none => 0#2
  | .modbus => 1#2
  | .vendorB => 2#2

/-- The class codes (45_status_classifier.md R192). -/
def classCode : ClassCode → Byte
  | .none => 0x00#8
  | .notRunning => 0x01#8
  | .inOperation => 0x02#8
  | .cond k => 0x10#8 + BitVec.ofNat 8 k.val
  | .unknown => 0xFF#8

/-- The numbers of the sub-reasons (44_field_decoder.md R171). -/
def reasonCode : Reason → BitVec 3
  | .none => 0#3
  | .contNoPrior => 1#3
  | .simpleDuplicate => 2#3
  | .scaleMismatch => 3#3
  | .outOfRange => 4#3
  | .badWidth => 5#3
  | .badScale => 6#3

/-- DEC_INFO as read (10_state.md R41). -/
def decInfoWord (d : DecInfo) : Word :=
  placed (reasonCode d.reason) 0 ||| placed d.index 8 ||| flagAt d.odd 16 ||| flagAt d.trunc 17

/-- KIND as a number (10_state.md R48). -/
def kindCode : Kind → BitVec 2
  | .none => 0#2
  | .simple => 1#2
  | .cont => 2#2
  | .skip => 3#2

/-- KIND of a number (R48). -/
def kindOfCode (v : BitVec 2) : Kind :=
  if v = 0#2 then .none else if v = 1#2 then .simple else if v = 2#2 then .cont else .skip

/-- FDESC_CTL[i] as read; reserved bits read 0 (R48). -/
def fdescCtlWord (d : FDesc) : Word :=
  placed (kindCode d.kind) 0 ||| placed d.width 2 ||| placed (BitVec.ofNat 5 d.slot.val) 4 ||| placed d.offset 16

/-- A descriptor after a write of FDESC_CTL: reserved bits are dropped, SCALE is another register (R48). -/
def fdescWithCtl (d : FDesc) (w : Word) : FDesc where
  kind := kindOfCode (w.extractLsb' 0 2)
  width := w.extractLsb' 2 2
  slot := (w.extractLsb' 4 5).toFin
  offset := w.extractLsb' 16 9
  scale := d.scale

/-- A descriptor after a write of FDESC_SCALE: bits [15:0] (R49). -/
def fdescWithScale (d : FDesc) (w : Word) : FDesc :=
  { d with scale := w.setWidth 16 }

/-- CMDT[j] as read; bits [30:24] read 0 (R51). -/
def cmdtWord (e : CmdEntry) : Word :=
  placed e.code 0 ||| placed e.minlen 8 ||| placed e.f0 16 ||| flagAt e.valid 31

/-- A command table entry after a write (R51). -/
def cmdtOfWord (w : Word) : CmdEntry where
  code := w.extractLsb' 0 8
  minlen := w.extractLsb' 8 8
  f0 := w.extractLsb' 16 8
  valid := w.getLsbD 31

/-- A list of bits as a number, the first bit the least significant. -/
def bitsValue : List Bool → Nat
  | [] => 0
  | b :: bs => b.toNat + 2 * bitsValue bs

/-- FV_VALID as read: bit k is slot k's (10_state.md R42). -/
def State.fvValidWord (s : State) : Word :=
  BitVec.ofNat 32 (bitsValue (s.slots.toList.map (·.valid)))

end Sys2Proof.Machine
end

