-- ==== Sys2Proof/Machine/Classifier.lean ====
section
/-! DEFINITION. The status classifier (45_status_classifier.md). -/

namespace Sys2Proof.Machine

/-- The exact-match table of the Modbus-style classifier (R190). -/
def classifyMb (x : Word) : ClassCode :=
  if x = 0#32 then .notRunning else if x = 1#32 then .inOperation else .unknown

/-- The ordered bitmask evaluation of the Vendor-B classifier: the first mask of the list that meets `x` wins (R191). -/
def classifyVb (p : Params) (x : Word) : ClassCode :=
  if x = 0#32 then .inOperation
  else
    match (List.finRange 12).find? (fun k => (x &&& p.vbMask k) != 0#32) with
    | some k => .cond k
    | none => .unknown

/-- SC_CLASS <- c; finish(NONE, 1, c) (R190, R191). -/
def State.setClass (s : State) (c : ClassCode) : State :=
  { s with scClass := c }.finish .none true ((classCode c).setWidth 32)

/-- SC_CLASS_MB (R190). -/
def execScClassMb (s : State) : Host.Outcome State Fault Refusal :=
  .next (s.setClass (classifyMb s.scIn))

/-- SC_CLASS_VB (R191). -/
def execScClassVb (s : State) : Host.Outcome State Fault Refusal :=
  .next (s.setClass (classifyVb s.params s.scIn))

end Sys2Proof.Machine
end

