-- ==== Sys2Proof/Machine/Control.lean ====
section
/-! DEFINITION. The control operation (46_control.md). -/

namespace Sys2Proof.Machine

/-- NOP: `finish(NONE, 1, 0)` (R200). -/
def execNop (s : State) : Host.Outcome State Fault Refusal :=
  .next (s.finish .none true 0#32)

end Sys2Proof.Machine
end

