-- ==== Sys2Proof/Machine/FieldDecoder.lean ====
section
/-! DEFINITION. The register (field) decoder (44_field_decoder.md). -/

namespace Sys2Proof.Machine

/-- The working copy of a decode: the slots, and how many SIMPLE and CONT descriptors were applied (R170, R172). -/
structure DecodeWork where
  slots : Vector Slot 32
  applied : Nat
  deriving DecidableEq, Repr

/-- A fresh sample: every slot empty (R170). -/
def emptyWork : DecodeWork :=
  ⟨Vector.replicate 32 Slot.empty, 0⟩

/-- The kind checks of R171 against the slot the descriptor names: SIMPLE_DUPLICATE, CONT_NO_PRIOR, SCALE_MISMATCH. -/
def kindCheck (d : FDesc) (sl : Slot) : Reason :=
  match d.kind with
  | .none | .skip => .none
  | .simple => if sl.valid then .simpleDuplicate else .none
  | .cont => if !sl.valid then .contNoPrior else if sl.den ≠ d.scale then .scaleMismatch else .none

/-- `apply(i, r)` of R172: SIMPLE sets its slot, CONT adds to it. -/
def applyField (d : FDesc) (r : Nat) (w : DecodeWork) : DecodeWork :=
  match d.kind with
  | .none | .skip => w
  | .simple => ⟨w.slots.set d.slot ⟨true, BitVec.ofNat 32 r, d.scale⟩, w.applied + 1⟩
  | .cont =>
    let sl := w.slots[d.slot]
    ⟨w.slots.set d.slot { sl with num := BitVec.ofNat 32 (sl.num.toNat + r) }, w.applied + 1⟩

/-- One descriptor: checks in the order of R171, then `apply`. `raw` is the field's value, or the Vendor-B check that
failed while taking it. -/
def decodeField (d : FDesc) (raw : Except Reason Nat) (w : DecodeWork) : Except Reason DecodeWork :=
  if d.active then
    if d.scale = 0#16 then .error .badScale
    else
      match raw with
      | .error reason => .error reason
      | .ok r =>
        match kindCheck d w.slots[d.slot] with
        | .none => .ok (applyField d r w)
        | reason => .error reason
  else .ok w

/-- The descriptors in index order; the first failing check stops the decode with its reason and index (R171). -/
def decodeFields (t : Vector FDesc 32) (raw : Fin 32 → Except Reason Nat) :
    List (Fin 32) → DecodeWork → Except (Reason × Fin 32) DecodeWork
  | [], w => .ok w
  | i :: is, w =>
    match decodeField t[i] (raw i) w with
    | .error reason => .error (reason, i)
    | .ok w' => decodeFields t raw is w'

/-- The descriptor indices below `n`, rising. -/
def indicesBelow (n : Nat) : List (Fin 32) :=
  (List.finRange 32).take n

/-- The end of a decode (R170, R171): commit the working copy, or clear every slot and report the inconsistency. -/
def State.endDecode (s : State) (odd trunc : Bool) : Except (Reason × Fin 32) DecodeWork → State
  | .ok w =>
    { s with slots := w.slots, decInfo := ⟨.none, 0#5, odd, trunc⟩ }.finish .none true (BitVec.ofNat 32 w.applied)
  | .error (reason, i) =>
    { s with slots := emptyWork.slots, decInfo := ⟨reason, BitVec.ofNat 5 i.val, odd, trunc⟩ }.raise .decodeInconsistency

/-- Payload word `i` of a Modbus-style payload, big-endian unsigned (20_memory.md R77). An index past RXB[511], which no run
reaches (R75), reads the byte at that window offset (DESIGN CHOICE, assumption 15). -/
def mbRaw (s : State) (i : Fin 32) : Except Reason Nat :=
  let at_ := s.parse.off.toNat + 2 * i.val
  .ok (be16 (s.rxByte at_) (s.rxByte (at_ + 1)))

/-- FD_DECODE_MB (R173). -/
def execFdDecodeMb (s : State) : Host.Outcome State Fault Refusal :=
  if s.pv ≠ .modbus then .next (s.raise .noPayload)
  else
    let n := s.parse.len.toNat
    let words := n / 2
    .next (s.endDecode (n % 2 == 1) (decide (32 < words))
      (decodeFields s.fdesc (mbRaw s) (indicesBelow words) emptyWork))

/-- The Vendor-B field of descriptor `i`: BAD_WIDTH, then OUT_OF_RANGE, then the little-endian value (R171, R174). -/
def vbRaw (s : State) (i : Fin 32) : Except Reason Nat :=
  let d := s.fdesc[i]
  if d.width = 0#2 then .error .badWidth
  else if s.parse.len.toNat < d.offset.toNat + d.width.toNat then .error .outOfRange
  else .ok (leValue (s.readBytes (Config.rxBase + (s.parse.off.toNat + d.offset.toNat)) d.width.toNat))

/-- FD_DECODE_VB (R174). -/
def execFdDecodeVb (s : State) : Host.Outcome State Fault Refusal :=
  if s.pv ≠ .vendorB then .next (s.raise .noPayload)
  else
    .next (s.endDecode false false (decodeFields s.fdesc (vbRaw s) (indicesBelow 32) emptyWork))

end Sys2Proof.Machine
end

