-- ==== Sys2Proof/Machine/ModbusCodec.lean ====
section
/-! DEFINITION. The Modbus-style frame codec (42_frame_modbus.md). -/

namespace Sys2Proof.Machine

/-- T, the Modbus-style trailer's length: 1 for ADD8, 2 for CRC16 (R132). -/
def trailerLen (mbck : Bool) : Nat :=
  if mbck then 2 else 1

/-- The value of the Modbus-style trailer of these bytes, 8 or 16 bits (R132). -/
def trailerValue (mbck : Bool) (bs : List Byte) : Word :=
  if mbck then (crc16 bs).setWidth 32 else (add8 bs).setWidth 32

/-- The bytes of the Modbus-style trailer: the ADD8 byte, or the CRC16 low byte first (R132). -/
def trailerBytes (mbck : Bool) (bs : List Byte) : List Byte :=
  if mbck then crcTrailer (crc16 bs) else [add8 bs]

/-- The six bytes of a Modbus-style request before its trailer (30_encoding.md R97). -/
def mbRequestHead (s : State) : List Byte :=
  [s.mbSlave, s.mbFunc, s.mbStart.extractLsb' 8 8, s.mbStart.extractLsb' 0 8,
    s.mbCount.extractLsb' 8 8, s.mbCount.extractLsb' 0 8]

/-- Write a built frame to TXB[0..] and set TXLEN; bytes from TXLEN upward are unchanged (R130, 43 R150). -/
def State.putFrame (s : State) (bs : List Byte) : State :=
  { s.writeBytes Config.txBase bs with txlen := clampLen bs.length }

/-- MB_BUILD (R130). -/
def execMbBuild (s : State) : Host.Outcome State Fault Refusal :=
  let h := mbRequestHead s
  .next ((s.putFrame (h ++ trailerBytes s.mbck h)).finish .none true (trailerValue s.mbck h))

/-- The P_* registers of a parsed Modbus-style response with byte count `n` and frame length `fl` (R131, 10 R36). -/
def mbParseRegs (s : State) (n fl : Nat) : ParseRegs where
  addr := (s.rxByte 0).setWidth 16
  func := s.rxByte 1
  src := 0#16
  bcnt := BitVec.ofNat 10 n
  off := 3#10
  len := BitVec.ofNat 10 n
  flen := BitVec.ofNat 10 fl

/-- MB_PARSE (R131). The frame is the first FL bytes; bytes beyond are ignored (R133). -/
def execMbParse (s : State) : Host.Outcome State Fault Refusal :=
  let l := s.rxlen.val
  if l = 0 then .next (s.failParse .noResponse 0#32)
  else if l < 3 then .next (s.failParse .incomplete 0#32)
  else
    let n := (s.rxByte 2).toNat
    let t := trailerLen s.mbck
    let fl := 3 + n + t
    if l < fl then .next (s.failParse .incomplete 0#32)
    else
      let body := s.readBytes Config.rxBase (fl - t)
      let sent := s.readBytes (Config.rxBase + (fl - t)) t
      if sent == trailerBytes s.mbck body then
        .next ((s.setParse (mbParseRegs s n fl) .modbus).finish .none true (trailerValue s.mbck body))
      else .next (s.failParse .checksumMismatch (trailerValue s.mbck body))

end Sys2Proof.Machine
end

