-- ==== Sys2Proof/Machine/VendorB.lean ====
section
/-! DEFINITION. The Vendor-B frame codec (43_frame_vendorb.md). Its checksum is always ADD8 (41_checksum.md R121). -/

namespace Sys2Proof.Machine

/-- The eight bytes of a Vendor-B request before its checksum (30_encoding.md R99). -/
def vbRequestHead (s : State) (c : Byte) : List Byte :=
  [s.vbDest.extractLsb' 0 8, s.vbDest.extractLsb' 8 8, s.vbSrc.extractLsb' 0 8, s.vbSrc.extractLsb' 8 8,
    c, s.filler0 c, 0x00#8, 0x00#8]

/-- VB_BUILD (R150). -/
def execVbBuild (c : Byte) (s : State) : Host.Outcome State Fault Refusal :=
  let h := vbRequestHead s c
  let sum := add8 h
  .next ((s.putFrame (h ++ [sum])).finish .none true (sum.setWidth 32))

/-- VB_MINLEN (R151). -/
def execVbMinlen (c : Byte) (s : State) : Host.Outcome State Fault Refusal :=
  .next (s.finish .none true (BitVec.ofNat 32 (s.minLen c)))

/-- The least frame length VB_PARSE admits: max(minlen(c), 6) (R154). -/
def State.vbBound (s : State) (c : Byte) : Nat :=
  max (s.minLen c) 6

/-- The P_* registers of a parsed Vendor-B response of length `l` (R153, 10 R36). -/
def vbParseRegs (s : State) (l : Nat) : ParseRegs where
  addr := BitVec.ofNat 16 (leValue (s.readBytes Config.rxBase 2))
  func := s.rxByte 4
  src := BitVec.ofNat 16 (leValue (s.readBytes (Config.rxBase + 2) 2))
  bcnt := BitVec.ofNat 10 (l - 6)
  off := 5#10
  len := BitVec.ofNat 10 (l - 6)
  flen := BitVec.ofNat 10 l

/-- VB_PARSE (R153). The command byte is not compared with ARG (R155). -/
def execVbParse (c : Byte) (s : State) : Host.Outcome State Fault Refusal :=
  let l := s.rxlen.val
  if l = 0 then .next (s.failParse .noResponse 0#32)
  else if l < s.vbBound c then .next (s.failParse .tooShort 0#32)
  else
    let sum := add8 (s.readBytes Config.rxBase (l - 1))
    if s.rxByte (l - 1) = sum then
      .next ((s.setParse (vbParseRegs s l) .vendorB).finish .none true (sum.setWidth 32))
    else .next (s.failParse .checksumMismatch (sum.setWidth 32))

end Sys2Proof.Machine
end

