-- ==== Sys2Proof/Machine/Dispatch.lean ====
section
/-! DEFINITION. One arm per operation of the opcode table. -/

namespace Sys2Proof.Machine

def exec (i : Instr) (s : State) : Host.Outcome State Fault Refusal :=
  match i with
  | .nop => Sys2Proof.Machine.execNop s
  | .ckSum8 sel => Sys2Proof.Machine.execCkSum8 sel s
  | .ckCheck8 sel => Sys2Proof.Machine.execCkCheck8 sel s
  | .ckAppend8 sel => Sys2Proof.Machine.execCkAppend8 sel s
  | .ckCrc16 sel => Sys2Proof.Machine.execCkCrc16 sel s
  | .ckCheck16 sel => Sys2Proof.Machine.execCkCheck16 sel s
  | .ckAppend16 sel => Sys2Proof.Machine.execCkAppend16 sel s
  | .mbBuild => Sys2Proof.Machine.execMbBuild s
  | .mbParse => Sys2Proof.Machine.execMbParse s
  | .vbBuild c => Sys2Proof.Machine.execVbBuild c s
  | .vbMinlen c => Sys2Proof.Machine.execVbMinlen c s
  | .vbParse c => Sys2Proof.Machine.execVbParse c s
  | .fdDecodeMb => Sys2Proof.Machine.execFdDecodeMb s
  | .fdDecodeVb => Sys2Proof.Machine.execFdDecodeVb s
  | .scClassMb => Sys2Proof.Machine.execScClassMb s
  | .scClassVb => Sys2Proof.Machine.execScClassVb s

end Sys2Proof.Machine
end

