-- ==== Sys2Proof/Machine/Bus.lean ====
section
/-! DEFINITION. The bus port: which register an offset names, what a read returns, and what a write does
(10_state.md R20-R57, 20_memory.md R70-R74). -/

namespace Sys2Proof.Machine

/-- The offsets of the single registers (10_state.md R20). -/
def namedOffsets : List (Nat × Reg) :=
  [(0x000, .id), (0x004, .ctrl), (0x008, .cmd), (0x00C, .status), (0x010, .rxlen), (0x014, .txlen), (0x018, .rxpush),
   (0x01C, .result), (0x020, .mbSlave), (0x024, .mbFunc), (0x028, .mbStart), (0x02C, .mbCount), (0x030, .vbDest),
   (0x034, .vbSrc), (0x040, .pAddr), (0x044, .pFunc), (0x048, .pSrc), (0x04C, .pBcnt), (0x050, .pOff), (0x054, .pLen),
   (0x058, .pFlen), (0x05C, .pstate), (0x060, .scIn), (0x064, .scClass), (0x068, .decInfo), (0x06C, .fvValid)]

/-- The register, table word or buffer word at an aligned offset below WINDOW_BYTES; none at a reserved offset (R20,
20_memory.md R73). -/
def regAt (off : Nat) : Option Reg :=
  if off < 0x070 then namedOffsets.lookup off
  else if off < 0x100 then none
  else if off < 0x180 then some (.fvNum (Fin.ofNat 32 ((off - 0x100) / 4)))
  else if off < 0x200 then some (.fvDen (Fin.ofNat 32 ((off - 0x180) / 4)))
  else if off < 0x300 then
    if off % 8 = 0 then some (.fdescCtl (Fin.ofNat 32 ((off - 0x200) / 8)))
    else some (.fdescScale (Fin.ofNat 32 ((off - 0x200) / 8)))
  else if off < 0x340 then some (.cmdt (Fin.ofNat 16 ((off - 0x300) / 4)))
  else if off < 0x400 then none
  else if off < 0x600 then some (.rxb (Fin.ofNat 128 ((off - 0x400) / 4)))
  else if off < 0x800 then some (.txb (Fin.ofNat 128 ((off - 0x600) / 4)))
  else none

/-- The value of a register as the bus reads it. No read has a side effect (20_memory.md R74). -/
def State.readReg (s : State) : Reg → Word
  | .id => Config.idValue
  | .ctrl => s.ctrlWord
  | .cmd => s.cmd.setWidth 32
  | .status => s.statusWord
  | .rxlen => BitVec.ofNat 32 s.rxlen.val
  | .txlen => BitVec.ofNat 32 s.txlen.val
  | .rxpush => 0#32
  | .result => s.result
  | .mbSlave => s.mbSlave.setWidth 32
  | .mbFunc => s.mbFunc.setWidth 32
  | .mbStart => s.mbStart.setWidth 32
  | .mbCount => s.mbCount.setWidth 32
  | .vbDest => s.vbDest.setWidth 32
  | .vbSrc => s.vbSrc.setWidth 32
  | .pAddr => s.parse.addr.setWidth 32
  | .pFunc => s.parse.func.setWidth 32
  | .pSrc => s.parse.src.setWidth 32
  | .pBcnt => s.parse.bcnt.setWidth 32
  | .pOff => s.parse.off.setWidth 32
  | .pLen => s.parse.len.setWidth 32
  | .pFlen => s.parse.flen.setWidth 32
  | .pstate => (pvCode s.pv).setWidth 32
  | .scIn => s.scIn
  | .scClass => (classCode s.scClass).setWidth 32
  | .decInfo => decInfoWord s.decInfo
  | .fvValid => s.fvValidWord
  | .fvNum k => s.slots[k].num
  | .fvDen k => s.slots[k].den.setWidth 32
  | .fdescCtl i => fdescCtlWord s.fdesc[i]
  | .fdescScale i => s.fdesc[i].scale.setWidth 32
  | .cmdt j => cmdtWord s.cmdt[j]
  | .rxb w => s.wordAt (Config.rxBase + 4 * w.val)
  | .txb w => s.wordAt (Config.txBase + 4 * w.val)

/-- A write to CTRL: SRST = 1 is a soft reset whatever the other bits are, else IE and MBCK are stored (10_state.md R22,
70_reset_and_hazards.md R231). -/
def State.writeCtrl (s : State) (d : Word) : State :=
  if d.getLsbD 2 then s.softReset
  else { s with ie := d.getLsbD 0, mbck := d.getLsbD 1 }

/-- A write to RXPUSH: append one received byte and clear PV, or set RXOVF when RXB is full (10_state.md R28). -/
def State.pushRx (s : State) (d : Word) : State :=
  if s.rxlen.val < Config.bufBytes then s.append .rxb [d.setWidth 8]
  else { s with rxovf := true }

/-- The effect of a full write to a register while BUSY = 0. Read-only registers ignore it (20_memory.md R73). -/
def State.writeIdle (s : State) (d : Word) : Reg → State
  | .ctrl => s.writeCtrl d
  | .cmd => s.accept d
  | .status => s.writeStatus d
  | .rxlen => { s with rxlen := lenOfData d }.clearPv
  | .txlen => { s with txlen := lenOfData d }
  | .rxpush => s.pushRx d
  | .mbSlave => { s with mbSlave := d.setWidth 8 }
  | .mbFunc => { s with mbFunc := d.setWidth 8 }
  | .mbStart => { s with mbStart := d.setWidth 16 }
  | .mbCount => { s with mbCount := d.setWidth 16 }
  | .vbDest => { s with vbDest := d.setWidth 16 }
  | .vbSrc => { s with vbSrc := d.setWidth 16 }
  | .scIn => { s with scIn := d }
  | .fdescCtl i => { s with fdesc := s.fdesc.set i (fdescWithCtl s.fdesc[i] d) }
  | .fdescScale i => { s with fdesc := s.fdesc.set i (fdescWithScale s.fdesc[i] d) }
  | .cmdt j => { s with cmdt := s.cmdt.set j (cmdtOfWord d) }
  | .rxb w => (s.writeBytes (Config.rxBase + 4 * w.val) (lanesOf d)).clearPv
  | .txb w => s.writeBytes (Config.txBase + 4 * w.val) (lanesOf d)
  | .id | .result | .pAddr | .pFunc | .pSrc | .pBcnt | .pOff | .pLen | .pFlen | .pstate | .scClass | .decInfo | .fvValid
  | .fvNum _ | .fvDen _ => s

/-- The effect of a full write to a register while BUSY = 1: the write lock (10_state.md R57, R23). It covers every mapped
offset, read-only registers and a CTRL write without SRST among them (DEDUCED, assumption 13). -/
def State.writeBusy (s : State) (d : Word) : Reg → State
  | .status => s.writeStatus d
  | .ctrl => if d.getLsbD 2 then s.softReset else { s with wbz := true }
  | .cmd => { s with ovr := true }
  | .id | .rxlen | .txlen | .rxpush | .result | .mbSlave | .mbFunc | .mbStart | .mbCount | .vbDest | .vbSrc | .pAddr | .pFunc
  | .pSrc | .pBcnt | .pOff | .pLen | .pFlen | .pstate | .scIn | .scClass | .decInfo | .fvValid | .fvNum _ | .fvDen _
  | .fdescCtl _ | .fdescScale _ | .cmdt _ | .rxb _ | .txb _ => { s with wbz := true }

/-- The effect of a full write to a register. -/
def State.writeReg (s : State) (d : Word) (r : Reg) : State :=
  if s.busy then s.writeBusy d r else s.writeIdle d r

/-- The register an access reaches: the offset must lie in the window (R73); a narrow, partial or misaligned access, or one
to a reserved offset, reaches none and is answered ERROR (R71, R73), BUSY or not (DEDUCED, assumption 14). -/
def accessTarget (off : Nat) (lanes : BitVec 4) : Except Fault (Option Reg) :=
  if Config.windowBytes ≤ off then .error (.outsideWindow off)
  else if off % 4 = 0 ∧ lanes = 0xF#4 then .ok (regAt off)
  else .ok none

/-- `BusRead(off) -> (data32, resp)` (R72); an ERROR read returns 0. -/
def State.busRead (s : State) (off : Nat) (lanes : BitVec 4) : Except Fault (Word × Resp) :=
  match accessTarget off lanes with
  | .error f => .error f
  | .ok none => .ok (0#32, .error)
  | .ok (some r) => .ok (s.readReg r, .okay)

/-- `BusWrite(off, data32) -> resp` (R72); an ERROR write changes nothing. -/
def State.busWrite (s : State) (off : Nat) (lanes : BitVec 4) (d : Word) : Except Fault (State × Resp) :=
  match accessTarget off lanes with
  | .error f => .error f
  | .ok none => .ok (s, .error)
  | .ok (some r) => .ok (s.writeReg d r, .okay)

/-- The window offset of a platform address, none outside the window (20_memory.md R70, R86). -/
def windowOffset (address : Nat) : Option Nat :=
  if Config.sfcbBase ≤ address ∧ address < Config.sfcbBase + Config.windowBytes then some (address - Config.sfcbBase) else none

end Sys2Proof.Machine
end

