-- ==== Sys2Proof/Machine/HostTurn.lean ====
section
/-! DEFINITION. The host's moves, and whose turn a step is. -/

namespace Sys2Proof.Machine

/-- One move of the host, already taken from its list (30_encoding.md R95; 70_reset_and_hazards.md R247). A `wait` that finds BUSY = 1
stays the next move (DEDUCED, assumption 11); after an ERROR response the host goes on (DESIGN CHOICE, assumption 16). -/
def State.playMove (s : State) : HostMove → Host.Outcome State Fault Refusal
  | .idle => .next s
  | .read off lanes into =>
    match s.busRead off lanes with
    | .error f => .fault f
    | .ok (d, r) => .next { s with vars := insertAt s.vars into d, reply := some (.readData d r) }
  | .write off lanes value =>
    match s.hostValue value with
    | .error f => .fault f
    | .ok d =>
      match s.busWrite off lanes d with
      | .error f => .fault f
      | .ok (t, r) => .next { t with reply := some (.written r) }
  | .wait =>
    let t := { s with reply := some (.readData s.statusWord .okay) }
    .next (if s.busy then { t with host := .wait :: s.host } else t)
  | .powerOn => .next s.powerCycle

/-- The host's turn: its next move, or a clock in which nothing happens when it has none. -/
def State.hostTurn (s : State) : Host.Outcome State Fault Refusal :=
  match s.host with
  | [] => .next s
  | m :: rest => { s with host := rest }.playMove m

/-- Whose turn a step is. -/
inductive Turn where
  | host
  | completion (pcmd : Half)
  deriving DecidableEq, Repr

/-- The completion's turn comes when the countdown is at its end (10_state.md R25(3)); every other turn is the host's (DESIGN CHOICE, assumption 1). -/
def State.turn (s : State) : Turn :=
  match s.engine with
  | .idle => .host
  | .running p left => if left ≤ 1 then .completion p else .host

/-- Place a command so that the next turn is its completion: the state right after its acceptance with one turn to go. -/
def State.withCommand (s : State) (p : Half) : State :=
  { s with cmd := p, engine := .running p 1 }

end Sys2Proof.Machine
end

