-- ==== Sys2Proof/Machine/Step.lean ====
section
/-! DEFINITION. One step: the completion of the command in flight, or a turn of the host. -/

namespace Sys2Proof.Machine

/-- One turn (10_state.md R25, 60_exceptions.md R215, 70_reset_and_hazards.md R246): when the countdown of the command in
flight is at its end, its completion, which is the whole effect of the operation; else the countdown goes down by one and the
host moves (DESIGN CHOICE, assumption 1). -/
def step (s : State) : Host.Outcome State Fault Refusal :=
  match s.turn with
  | .completion p =>
    match decodeLatch p with
    | .ok i => exec i s
    | .error _ => .next s.completeIllegal
  | .host => s.tick.hostTurn

/-- `s` with the command `w` (its low `nbits` bits, zeros above) accepted and its completion due in the next step. The SFCB
fetches nothing (20_memory.md R84): this stands for the host's CMD write (DESIGN CHOICE, assumption 9). -/
def State.withFetchWord (s : State) (nbits w : Nat) : State :=
  s.withCommand (BitVec.ofNat 16 (w % 2 ^ nbits))

end Sys2Proof.Machine
end

