-- ==== Sys2Proof/Machine/HostProgram.lean ====
section
/-! DEFINITION. The host statements and pseudo-instructions of 30_encoding.md R95 and R96, as lists of host moves. -/

namespace Sys2Proof.Machine

/-- `wr OFFSET, VALUE` with a number. -/
def hostWr (off : Nat) (w : Word) : HostMove :=
  .write off 0xF#4 (.lit w)

/-- `wr OFFSET, NAME` with a host variable. -/
def hostWrVar (off : Nat) (name : Nat) : HostMove :=
  .write off 0xF#4 (.var name)

/-- `rd OFFSET -> NAME`. -/
def hostRd (off : Nat) (name : Nat) : HostMove :=
  .read off 0xF#4 name

/-- `cmd`: write `OPC | (ARG << 8)` to CMD, then wait (R95, R96). -/
def hostCmdWord (opc arg : Byte) : List HostMove :=
  [hostWr 0x008 (commandWord opc arg), .wait]

/-- `cmd MNEMONIC [ARG]` with an operation of the table. -/
def hostCmd (i : Instr) : List HostMove :=
  hostCmdWord (opcOf i) (argOf i)

/-- `loadrx b0 ... bn-1`: RXLEN <- 0, then one RXPUSH per byte (R96). -/
def hostLoadRx (bs : List Byte) : List HostMove :=
  hostWr 0x010 0#32 :: bs.map (fun b => hostWr 0x018 (b.setWidth 32))

/-- `clrdone` (R96). -/
def hostClrDone : List HostMove :=
  [hostWr 0x00C 0x2#32]

/-- The byte that a `wrbytes` of `bs` at `index` puts at buffer index `i`, if any. -/
def wrbytesByte (index : Nat) (bs : List Byte) (i : Nat) : Option Byte :=
  if index ≤ i then bs[i - index]? else none

/-- The lane mask and the data of one bus word of a `wrbytes`: word `w` holds the indices 4w .. 4w+3. -/
def wrbytesWord (index : Nat) (bs : List Byte) (w : Nat) : BitVec 4 × Word :=
  let lane (k : Nat) : Option Byte := wrbytesByte index bs (4 * w + k)
  let mask := (lane 3).isSome.toNat * 8 + (lane 2).isSome.toNat * 4 + (lane 1).isSome.toNat * 2 + (lane 0).isSome.toNat
  (BitVec.ofNat 4 mask,
    wordOfLanes ((lane 0).getD 0#8) ((lane 1).getD 0#8) ((lane 2).getD 0#8) ((lane 3).getD 0#8))

/-- The words of a 512-byte buffer that hold one of the indices index .. index + |bs| - 1, in rising order (R96: only "each bus
word W of BUF"). -/
def wrbytesWords (index : Nat) (bs : List Byte) : List Nat :=
  (List.range 128).filter (fun w => (wrbytesWord index bs w).1 != 0#4)

/-- `wrbytes BUF, INDEX, b0 ... bm-1`: for each word of the buffer that holds one of the indices, read it into the variable `t`
and write it back with those lanes replaced (R96). An index past the buffer's end is in no word of it. -/
def hostWrBytes (sel : Sel) (t index : Nat) (bs : List Byte) : List HostMove :=
  (wrbytesWords index bs).flatMap (fun w =>
    let off := selBase sel + 4 * w
    let md := wrbytesWord index bs w
    [hostRd off t, .write off 0xF#4 (.merge t md.1 md.2)])

end Sys2Proof.Machine
end

