-- ==== Sys2Proof/Safety.lean ====
section
/-! DEFINITION. What the claims are stated in: the machine's invariant, a host program with a meaning at every move, the
parts of the state an operation never writes, and the events that the spec names. -/

namespace Sys2Proof

/-- A host move that can discard an operation in flight: power-on reset, or a write at CTRL (soft reset). -/
def HostMove.mayReset : HostMove → Bool
  | .powerOn => true
  | .write off _ _ => off == 0x004
  | .idle | .wait | .read _ _ _ => false

end Sys2Proof

namespace Sys2Proof.Machine

/-- What PV = 1 says (10_state.md R36, R37): the P_* registers describe a Modbus-style frame that stands in RXB, within
RXLEN, and whose trailer is valid in one of the two forms. -/
structure State.ModbusLatched (s : State) : Prop where
  addr : s.parse.addr = (s.rxByte 0).setWidth 16
  func : s.parse.func = s.rxByte 1
  src : s.parse.src = 0#16
  bcnt : s.parse.bcnt.toNat = (s.rxByte 2).toNat
  off : s.parse.off = 3#10
  len : s.parse.len.toNat = (s.rxByte 2).toNat
  within : s.parse.flen.toNat ≤ s.rxlen.val
  trailer : ∃ mbck : Bool,
    s.parse.flen.toNat = 3 + (s.rxByte 2).toNat + trailerLen mbck ∧
    s.readBytes (Config.rxBase + (3 + (s.rxByte 2).toNat)) (trailerLen mbck) =
      trailerBytes mbck (s.readBytes Config.rxBase (3 + (s.rxByte 2).toNat))

/-- What PV = 2 says (10_state.md R36, R37): the P_* registers describe the Vendor-B frame RXB[0:RXLEN], whose last byte is
the ADD8 checksum of the rest. -/
structure State.VendorBLatched (s : State) : Prop where
  atLeastSix : 6 ≤ s.rxlen.val
  addr : s.parse.addr.toNat = leValue [s.rxByte 0, s.rxByte 1]
  src : s.parse.src.toNat = leValue [s.rxByte 2, s.rxByte 3]
  func : s.parse.func = s.rxByte 4
  bcnt : s.parse.bcnt.toNat = s.rxlen.val - 6
  off : s.parse.off = 5#10
  len : s.parse.len.toNat = s.rxlen.val - 6
  flen : s.parse.flen.toNat = s.rxlen.val
  checksum : s.rxByte (s.rxlen.val - 1) = add8 (s.readBytes Config.rxBase (s.rxlen.val - 1))

/-- A slot as 10_state.md R45 and 44_field_decoder.md R175 say: not valid and all 0, or valid with a denominator and a
numerator of at most NFD * (2^24 - 1). -/
def Slot.sound (sl : Slot) : Prop :=
  (sl.valid = false → sl = Slot.empty) ∧
  (sl.valid = true → sl.den ≠ 0#16 ∧ sl.num.toNat ≤ 32 * (2 ^ 24 - 1))

/-- The invariant of the machine: every step keeps it, and reset meets it. -/
structure State.Inv (s : State) : Prop where
  /-- the buffer memory is in canonical form -/
  memForm : Memory.wf s.mem = true
  /-- the host's variables are listed by strictly rising number -/
  varsForm : keysRising 0 s.vars = true
  /-- PCMD is the command that CMD shows (10_state.md R54), and at least one turn is to go (R25) -/
  latched : ∀ p left, s.engine = .running p left → p = s.cmd ∧ 1 ≤ left
  /-- PV = 1 is true (R37) -/
  modbus : s.pv = .modbus → s.ModbusLatched
  /-- PV = 2 is true (R37) -/
  vendorB : s.pv = .vendorB → s.VendorBLatched
  /-- the field values keep their form (R45, R56) -/
  slots : ∀ k : Fin 32, s.slots[k].sound
  /-- DEC_INFO.INDEX is 0 where REASON is 0 (R41) -/
  decIndex : s.decInfo.reason = .none → s.decInfo.index = 0#5
  /-- after a decode that failed every slot is empty (44_field_decoder.md R170) -/
  decFailed : s.decInfo.reason ≠ .none → ∀ k : Fin 32, s.slots[k] = Slot.empty

/-- A list of host moves with a meaning at every move: each access inside the window, each variable used after a read into
it or already in `known`. -/
def movesSound : List Nat → List HostMove → Bool
  | _, [] => true
  | known, m :: rest =>
    m.insideWindow && m.varsIn known &&
      (match m with
        | .read _ _ into => movesSound (into :: known) rest
        | .write _ _ _ | .idle | .wait | .powerOn => movesSound known rest)

/-- The host's moves to come have a meaning, given the variables it has set. -/
def State.hostSound (s : State) : Prop :=
  movesSound (s.vars.map (·.1)) s.host = true

/-- Two states that agree on everything an operation takes as input (10_state.md R57, 20_memory.md R84): the command, the
mode, the lengths, the build inputs, the parse results, PV, SC_IN, the tables, the buffers and the parameters. -/
structure SameInputs (s t : State) : Prop where
  cmd : t.cmd = s.cmd
  mbck : t.mbck = s.mbck
  rxlen : t.rxlen = s.rxlen
  txlen : t.txlen = s.txlen
  mbSlave : t.mbSlave = s.mbSlave
  mbFunc : t.mbFunc = s.mbFunc
  mbStart : t.mbStart = s.mbStart
  mbCount : t.mbCount = s.mbCount
  vbDest : t.vbDest = s.vbDest
  vbSrc : t.vbSrc = s.vbSrc
  parse : t.parse = s.parse
  pv : t.pv = s.pv
  scIn : t.scIn = s.scIn
  fdesc : t.fdesc = s.fdesc
  cmdt : t.cmdt = s.cmdt
  mem : t.mem = s.mem
  bufDraw : t.bufDraw = s.bufDraw
  params : t.params = s.params

/-- What no operation writes (10_state.md R25: "A register the rule does not name is unchanged"): CTRL, CMD, the sticky
flags, the build inputs, SC_IN, the tables, and everything of the model outside the block. -/
structure SameOutsideOperations (s t : State) : Prop where
  ie : t.ie = s.ie
  mbck : t.mbck = s.mbck
  cmd : t.cmd = s.cmd
  ovr : t.ovr = s.ovr
  wbz : t.wbz = s.wbz
  rxovf : t.rxovf = s.rxovf
  mbSlave : t.mbSlave = s.mbSlave
  mbFunc : t.mbFunc = s.mbFunc
  mbStart : t.mbStart = s.mbStart
  mbCount : t.mbCount = s.mbCount
  vbDest : t.vbDest = s.vbDest
  vbSrc : t.vbSrc = s.vbSrc
  scIn : t.scIn = s.scIn
  fdesc : t.fdesc = s.fdesc
  cmdt : t.cmdt = s.cmdt
  params : t.params = s.params
  bufDraw : t.bufDraw = s.bufDraw
  draws : t.draws = s.draws
  vars : t.vars = s.vars
  host : t.host = s.host
  reply : t.reply = s.reply

/-- The completed operation of a step, if the step is the completion of a legal command. -/
def State.completing (s : State) (i : Instr) : Prop :=
  ∃ p, s.turn = .completion p ∧ decodeLatch p = .ok i

/-- The host's turn, with the move it makes. -/
def State.hostMoves (s : State) (m : HostMove) : Prop :=
  s.turn = .host ∧ s.host.head? = some m

/-- The descriptors of a decode that name slot `k` and add to it, among the first `n`. -/
def contributors (t : Vector FDesc 32) (n : Nat) (k : Fin 32) : List (Fin 32) :=
  (indicesBelow n).filter (fun i => t[i].active && t[i].slot == k)

/-- The sum of the raw values that these descriptors add to one slot. -/
def rawSum (raw : Fin 32 → Nat) : List (Fin 32) → Nat
  | [] => 0
  | i :: is => raw i + rawSum raw is

/-- The error codes an operation may report: the column "raised by" of R211. -/
def mayRaise : Instr → List Err
  | .ckCheck8 _ => [.noResponse]
  | .ckCheck16 _ => [.noResponse, .incomplete]
  | .ckAppend8 _ | .ckAppend16 _ => [.bufferOverflow]
  | .mbParse => [.noResponse, .incomplete, .checksumMismatch]
  | .vbParse _ => [.noResponse, .tooShort, .checksumMismatch]
  | .fdDecodeMb | .fdDecodeVb => [.noPayload, .decodeInconsistency]
  | .nop | .ckSum8 _ | .ckCrc16 _ | .mbBuild | .vbBuild _ | .vbMinlen _ | .scClassMb | .scClassVb => []

/-- The state with one bit of byte `j` of the selected buffer flipped. -/
def flipBit (sel : Sel) (s : State) (j : Nat) (k : Nat) : State :=
  s.writeBytes (selBase sel + j) [s.selByte sel j ^^^ (1#8 <<< k)]

/-- The value of payload word `i` of the latched Modbus-style payload (R77). -/
def payloadWord (s : State) (i : Fin 32) : Nat :=
  be16 (s.rxByte (s.parse.off.toNat + 2 * i.val)) (s.rxByte (s.parse.off.toNat + 2 * i.val + 1))

/-- The value of the Vendor-B field of descriptor `i` (R78, R174). -/
def payloadField (s : State) (i : Fin 32) : Nat :=
  leValue (s.readBytes (Config.rxBase + (s.parse.off.toNat + s.fdesc[i].offset.toNat)) s.fdesc[i].width.toNat)

/-- The field of descriptor `i` can be taken: for FD_DECODE_VB it has a width and lies within the payload (R171, R174). -/
def FieldInPayload (s : State) (vendorB : Bool) (i : Fin 32) : Prop :=
  vendorB = true → s.fdesc[i].width ≠ 0#2 ∧ s.fdesc[i].offset.toNat + s.fdesc[i].width.toNat ≤ s.parse.len.toNat

/-- Why a decode stops at descriptor `i` (R171): its first failing check, all descriptors before it having been applied. -/
def StopsFor (s : State) (vendorB : Bool) (i : Fin 32) : Reason → Prop
  | .none => False
  | .badScale => s.fdesc[i].active = true ∧ s.fdesc[i].scale = 0#16
  | .badWidth => vendorB = true ∧ s.fdesc[i].active = true ∧ s.fdesc[i].scale ≠ 0#16 ∧ s.fdesc[i].width = 0#2
  | .outOfRange => vendorB = true ∧ s.fdesc[i].active = true ∧ s.fdesc[i].scale ≠ 0#16 ∧ s.fdesc[i].width ≠ 0#2 ∧
      s.parse.len.toNat < s.fdesc[i].offset.toNat + s.fdesc[i].width.toNat
  | .simpleDuplicate => s.fdesc[i].scale ≠ 0#16 ∧ FieldInPayload s vendorB i ∧ s.fdesc[i].kind = .simple ∧
      ∃ j : Fin 32, j < i ∧ s.fdesc[j].kind = .simple ∧ s.fdesc[j].slot = s.fdesc[i].slot
  | .contNoPrior => s.fdesc[i].scale ≠ 0#16 ∧ FieldInPayload s vendorB i ∧ s.fdesc[i].kind = .cont ∧
      ∀ j : Fin 32, j < i → s.fdesc[j].kind = .simple → s.fdesc[j].slot ≠ s.fdesc[i].slot
  | .scaleMismatch => s.fdesc[i].scale ≠ 0#16 ∧ FieldInPayload s vendorB i ∧ s.fdesc[i].kind = .cont ∧
      ∃ j : Fin 32, j < i ∧ s.fdesc[j].kind = .simple ∧ s.fdesc[j].slot = s.fdesc[i].slot ∧
        s.fdesc[j].scale ≠ s.fdesc[i].scale

/-- Descriptor `i` is the first that a decode cannot apply, for reason `r` (R171, R212): the descriptors below it are consistent
and their fields lie in the payload. -/
def FirstStop (s : State) (vendorB : Bool) (i : Fin 32) (r : Reason) : Prop :=
  StopsFor s vendorB i r ∧ tableConsistent s.fdesc i.val ∧
    ∀ j : Fin 32, j < i → s.fdesc[j].active = true → FieldInPayload s vendorB j

/-- The reserved offsets of R73. -/
def reservedOffset (off : Nat) : Prop :=
  off = 0x038 ∨ off = 0x03C ∨ (0x070 ≤ off ∧ off ≤ 0x0FC) ∨ (0x340 ≤ off ∧ off ≤ 0x3FC)

/-- What every mapped offset below the buffers reads after power-on: ID its constant, CTRL 2, all others 0 (10_state.md R20). -/
def resetWord (off : Nat) : Word :=
  if off = 0x000 then 0x53430001#32 else if off = 0x004 then 0x00000002#32 else 0#32

/-- The offsets of the read-only registers (10_state.md R20). -/
def readOnlyOffset (off : Nat) : Prop :=
  off ∈ [0x000, 0x01C, 0x040, 0x044, 0x048, 0x04C, 0x050, 0x054, 0x058, 0x05C, 0x064, 0x068, 0x06C] ∨
    (0x100 ≤ off ∧ off < 0x200 ∧ off % 4 = 0)

/-- The bits that a read-write register or table word keeps (10_state.md R30-R35, R39, R48, R49, R51). -/
def keptBits (off : Nat) : Word :=
  if off ∈ [0x020, 0x024] then 0x000000FF#32
  else if off ∈ [0x028, 0x02C, 0x030, 0x034] then 0x0000FFFF#32
  else if off = 0x060 then 0xFFFFFFFF#32
  else if off < 0x300 then (if off % 8 = 0 then 0x01FF01FF#32 else 0x0000FFFF#32)
  else 0x80FFFFFF#32

/-- The offsets of the build inputs, SC_IN and the tables. -/
def inputOffset (off : Nat) : Prop :=
  off ∈ [0x020, 0x024, 0x028, 0x02C, 0x030, 0x034, 0x060] ∨ (0x200 ≤ off ∧ off < 0x340 ∧ off % 4 = 0)

/-- A host write that is an accepted change of RXB or RXLEN (R38): RXLEN, RXPUSH below 512 bytes, or an RXB word, BUSY = 0. -/
def acceptedRxWrite (s : State) (off : Nat) : Prop :=
  s.engine = .idle ∧ off % 4 = 0 ∧
    (off = 0x010 ∨ (off = 0x018 ∧ s.rxlen.val < 512) ∨ (0x400 ≤ off ∧ off < 0x600))

/-- The events of R38 that set PV to 0, as what a step does. -/
def PvClearingEvent (s t : State) : Prop :=
  (∃ off v, s.hostMoves (.write off 0xF#4 v) ∧ acceptedRxWrite s off) ∨
  (s.completing (.ckAppend8 .rxb) ∧ t.err = .none) ∨ (s.completing (.ckAppend16 .rxb) ∧ t.err = .none) ∨
  (s.completing .mbParse ∧ t.err ≠ .none) ∨ (∃ c, s.completing (.vbParse c) ∧ t.err ≠ .none) ∨
  s.hostMoves .powerOn ∨
  (∃ v d, s.hostMoves (.write 0x004 0xF#4 v) ∧ s.hostValue v = .ok d ∧ d.getLsbD 2 = true)

end Sys2Proof.Machine
end

