-- ==== Sys2Proof/Certificates/Slice0/Obligations.lean ====
section
/-! DEFINITION. The statements for the provers, from the numbered rules of spec/. -/

open Sys2Proof Sys2Proof.Machine

/-! ### Encoding -/

/-- R94: the formula of a command word, and the two words that the rule writes out: each is the formula's value and decodes to the
operation it stands for. -/
def Obligations.SpecWordsDecodeToTheirOperations : Prop :=
  decodeCommand 0x00005A22#32 = .ok (.vbParse 0x5A#8) ∧
  decodeCommand 0x00000102#32 = .ok (.ckCheck8 .txb) ∧
  commandWord 0x22#8 0x5A#8 = 0x00005A22#32 ∧
  commandWord 0x02#8 0x01#8 = 0x00000102#32 ∧
  (∀ opc arg : Byte, commandWord opc arg = opc.setWidth 32 ||| arg.setWidth 32 <<< 8)

/-- R92, R93, R94: decoding inverts encoding, and bits of ARG and of CMD[31:16] that an operation ignores change nothing: any word
that agrees with the canonical word of `i` on the OPC byte and on the ARG bits `i` uses decodes to `i`. The other direction: a
canonical word (legal OPC, ignored bits 0) is the encoding of the operation it decodes to. -/
def Obligations.DecodeAndEncodeAgree : Prop :=
  (∀ i : Instr, decodeCommand (encode i) = .ok i) ∧
  (∀ (i : Instr) (w : Word),
    w.extractLsb' 0 8 = opcOf i →
    w.extractLsb' 8 8 &&& usedArgBits (opcOf i) = argOf i →
    decodeCommand w = .ok i) ∧
  (∀ w : Word, CommandWord.wellFormed w = true → ∃ i, decodeCommand w = .ok i ∧ encode i = w)

/-- R91, R93: a word decodes to an operation exactly when its OPC is one of the sixteen, and is refused by name otherwise. -/
def Obligations.ExactlySixteenOpcodesAreLegal : Prop :=
  (∀ w : Word, (∃ i, decodeCommand w = .ok i) ↔ w.extractLsb' 0 8 ∈ legalOpcodes) ∧
  (∀ w : Word, w.extractLsb' 0 8 ∉ legalOpcodes → decodeCommand w = .error (.illegalOpcode (w.extractLsb' 0 8))) ∧
  legalOpcodes.Nodup ∧ legalOpcodes.length = 16

/-! ### The step -/

/-- When the countdown of an accepted command is at its end and PCMD decodes to `i`, the step is exactly `i`; and a command placed
for the next step (`withFetchWord`) is the one that step runs. The turn and the placing are the model's choice (assumptions 1, 9). -/
def Obligations.StepRunsTheDecodedOperation : Prop :=
  (∀ (s : State) (p : Half) (left : Nat) (i : Instr),
    s.engine = .running p left → left ≤ 1 → decodeLatch p = .ok i → step s = exec i s) ∧
  (∀ (s : State) (nbits w : Nat) (i : Instr),
    decodeTableWord nbits w = some i →
    step (s.withFetchWord nbits w) = exec i (s.withFetchWord nbits w) ∧
    (s.withFetchWord nbits w).cmd = BitVec.ofNat 16 (w % 2 ^ nbits))

/-- Outside a completion the turn is the host's, and the countdown of a running operation goes down by one; with no host
move to come nothing else happens. That a step is one turn, and whose, is the model's choice (assumptions 1, 2, 3). -/
def Obligations.OtherTurnsAreTheHosts : Prop :=
  ∀ (s : State),
    (s.engine = .idle → step s = s.hostTurn) ∧
    (∀ p left, s.engine = .running p left → 2 ≤ left →
      step s = ({ s with engine := .running p (left - 1) } : State).hostTurn) ∧
    (∀ p left, s.engine = .running p left → 2 ≤ left → s.host = [] →
      step s = .next { s with engine := .running p (left - 1) })

/-- R217: a command whose OPC is not in R91 is accepted like any other and its completion is finish(ILLEGAL_OPCODE, 0, 0) and
nothing else. The countdown and the draw counter are the model's (assumption 2). -/
def Obligations.IllegalOpcodeIsAcceptedAndCompletes : Prop :=
  ∀ (s : State) (w : Word), w.extractLsb' 0 8 ∉ legalOpcodes →
    (s.engine = .idle → ∃ left, 1 ≤ left ∧
      s.busWrite 0x008 0xF#4 w =
        .ok ({ s with cmd := w.setWidth 16, engine := .running (w.setWidth 16) left, draws := s.draws + 1 }, .okay)) ∧
    (∀ left, s.engine = .running (w.setWidth 16) left → left ≤ 1 →
      step s = .next { s with
        engine := .idle, done := true, err := .illegalOpcode, res := false, result := 0#32 })

/-- R210, R25(3), R216: every operation, in every state, completes in a next state with BUSY = 0 and DONE = 1, and writes
none of the registers that no operation's rule names. -/
def Obligations.EveryOperationCompletesAndKeepsOtherRegisters : Prop :=
  ∀ (i : Instr) (s : State), ∃ t, exec i s = .next t ∧
    t.busy = false ∧ t.done = true ∧ (t.res = true → t.err = .none) ∧ SameOutsideOperations s t

/-- R211: each error code is reported by the operations the rule lists for it and by no other; and an operation that reports
an error has RES = 0, RESULT = 0 but for a checksum mismatch. -/
def Obligations.ErrorsAreRaisedOnlyAsListed : Prop :=
  ∀ (i : Instr) (s t : State), exec i s = .next t → t.err ≠ .none →
    t.err ∈ mayRaise i ∧ t.res = false ∧ (t.err ≠ .checksumMismatch → t.result = 0#32)

/-! ### Control and checksum operations -/

/-- R200, R201: NOP changes nothing but BUSY, DONE, RES, ERR and RESULT. -/
def Obligations.NopOnlyCompletes : Prop :=
  ∀ s : State, exec .nop s = .next { s with
    engine := .idle, done := true, err := .none, res := true, result := 0#32 }

/-- R111: CK_SUM8 gives the sum of every byte but the last, modulo 256 (0 for lengths 0 and 1), and changes nothing else. -/
def Obligations.CkSum8SumsAllButTheLast : Prop :=
  ∀ (sel : Sel) (s : State), ∃ t, exec (.ckSum8 sel) s = .next t ∧
    t = { s with engine := .idle, done := true, err := .none, res := true, result := t.result } ∧
    t.result.toNat = byteSum (s.selBytes sel ((s.selLen sel).val - 1)) % 256 ∧
    ((s.selLen sel).val ≤ 1 → t.result = 0#32)

/-- R112: CK_CHECK8 on an empty buffer is NO_RESPONSE; otherwise RES says whether the last byte is the sum of the others
modulo 256, and RESULT is that sum. Nothing else changes. -/
def Obligations.CkCheck8ComparesTheLastByte : Prop :=
  ∀ (sel : Sel) (s : State), ∃ t, exec (.ckCheck8 sel) s = .next t ∧
    t = { s with engine := .idle, done := true, err := t.err, res := t.res, result := t.result } ∧
    ((s.selLen sel).val = 0 → t.err = .noResponse ∧ t.res = false ∧ t.result = 0#32) ∧
    (0 < (s.selLen sel).val → t.err = .none ∧
      t.result.toNat = byteSum (s.selBytes sel ((s.selLen sel).val - 1)) % 256 ∧
      (t.res = true ↔ (s.selByte sel ((s.selLen sel).val - 1)).toNat = t.result.toNat))

/-- R113: CK_APPEND8 on a full buffer is BUFFER_OVERFLOW with nothing else changed; otherwise it stores the sum of all n bytes
modulo 256 at index n, raises the length by one, clears PV for RXB, and leaves every other byte and register alone. -/
def Obligations.CkAppend8AppendsTheSum : Prop :=
  ∀ (sel : Sel) (s : State),
    ((s.selLen sel).val = 512 → exec (.ckAppend8 sel) s = .next { s with
      engine := .idle, done := true, err := .bufferOverflow, res := false, result := 0#32 }) ∧
    ((s.selLen sel).val ≠ 512 → ∃ t, exec (.ckAppend8 sel) s = .next t ∧
      t = { s with
        engine := .idle, done := true, err := .none, res := true, result := t.result, mem := t.mem
        rxlen := if sel = .rxb then t.rxlen else s.rxlen
        txlen := if sel = .txb then t.txlen else s.txlen
        pv := if sel = .rxb then .none else s.pv } ∧
      (t.selLen sel).val = (s.selLen sel).val + 1 ∧
      t.result.toNat = byteSum (s.selBytes sel (s.selLen sel).val) % 256 ∧
      (t.selByte sel (s.selLen sel).val).toNat = t.result.toNat ∧
      (∀ a, a ≠ selBase sel + (s.selLen sel).val → t.byteAt a = s.byteAt a))

/-- R115: CK_CRC16 gives the CRC of all bytes but the last two (0xFFFF, the CRC of no bytes, for lengths up to 2), and
changes nothing else. -/
def Obligations.CkCrc16CoversAllButTheTrailer : Prop :=
  ∀ (sel : Sel) (s : State), ∃ t, exec (.ckCrc16 sel) s = .next t ∧
    t = { s with engine := .idle, done := true, err := .none, res := true, result := t.result } ∧
    t.result = (crc16 (s.selBytes sel ((s.selLen sel).val - 2))).setWidth 32 ∧
    ((s.selLen sel).val ≤ 2 → t.result = 0xFFFF#32)

/-- R116: CK_CHECK16 reports NO_RESPONSE at length 0 and INCOMPLETE at length 1; otherwise RES says whether the last two bytes
are the CRC of the others, low byte first, and RESULT is that CRC. Nothing else changes. -/
def Obligations.CkCheck16ComparesTheTrailer : Prop :=
  ∀ (sel : Sel) (s : State), ∃ t, exec (.ckCheck16 sel) s = .next t ∧
    t = { s with engine := .idle, done := true, err := t.err, res := t.res, result := t.result } ∧
    ((s.selLen sel).val = 0 → t.err = .noResponse ∧ t.res = false ∧ t.result = 0#32) ∧
    ((s.selLen sel).val = 1 → t.err = .incomplete ∧ t.res = false ∧ t.result = 0#32) ∧
    (2 ≤ (s.selLen sel).val → t.err = .none ∧
      t.result = (crc16 (s.selBytes sel ((s.selLen sel).val - 2))).setWidth 32 ∧
      (t.res = true ↔
        (s.selByte sel ((s.selLen sel).val - 2)).toNat + 256 * (s.selByte sel ((s.selLen sel).val - 1)).toNat =
          t.result.toNat))

/-- R117: CK_APPEND16 at a length of 511 or 512 is BUFFER_OVERFLOW with nothing else changed; otherwise it stores the CRC of all
n bytes at n and n + 1, low byte first, raises the length by two, clears PV for RXB, and leaves everything else alone. -/
def Obligations.CkAppend16AppendsTheCrc : Prop :=
  ∀ (sel : Sel) (s : State),
    (511 ≤ (s.selLen sel).val → exec (.ckAppend16 sel) s = .next { s with
      engine := .idle, done := true, err := .bufferOverflow, res := false, result := 0#32 }) ∧
    ((s.selLen sel).val ≤ 510 → ∃ t, exec (.ckAppend16 sel) s = .next t ∧
      t = { s with
        engine := .idle, done := true, err := .none, res := true, result := t.result, mem := t.mem
        rxlen := if sel = .rxb then t.rxlen else s.rxlen
        txlen := if sel = .txb then t.txlen else s.txlen
        pv := if sel = .rxb then .none else s.pv } ∧
      (t.selLen sel).val = (s.selLen sel).val + 2 ∧
      t.result = (crc16 (s.selBytes sel (s.selLen sel).val)).setWidth 32 ∧
      (t.selByte sel (s.selLen sel).val).toNat + 256 * (t.selByte sel ((s.selLen sel).val + 1)).toNat = t.result.toNat ∧
      (∀ a, a ≠ selBase sel + (s.selLen sel).val → a ≠ selBase sel + ((s.selLen sel).val + 1) → t.byteAt a = s.byteAt a))

/-- R119: whenever the append did not overflow, CK_APPEND8 followed by CK_CHECK8 on the same buffer gives RES = 1, and so does
CK_APPEND16 followed by CK_CHECK16. -/
def Obligations.AppendThenCheckIsValid : Prop :=
  ∀ (sel : Sel) (s t : State),
    (exec (.ckAppend8 sel) s = .next t → t.err ≠ .bufferOverflow →
      ∃ u, exec (.ckCheck8 sel) t = .next u ∧ u.err = .none ∧ u.res = true ∧ u.result = t.result) ∧
    (exec (.ckAppend16 sel) s = .next t → t.err ≠ .bufferOverflow →
      ∃ u, exec (.ckCheck16 sel) t = .next u ∧ u.err = .none ∧ u.res = true ∧ u.result = t.result)

/-- R120: flipping any one bit k of any byte of an ADD8-valid frame makes CK_CHECK8 return RES = 0: in a body byte the computed sum
moves by 2^k modulo 256, in the checksum byte it stays; and the blind spot of two bits: setting bit 7 in two body bytes that had
it clear leaves the frame valid. -/
def Obligations.SingleBitFlipsAreDetected : Prop :=
  ∀ (sel : Sel) (s t : State), exec (.ckCheck8 sel) s = .next t → t.res = true →
    (∀ j k : Nat, j < (s.selLen sel).val → k < 8 →
      ∃ u, exec (.ckCheck8 sel) (flipBit sel s j k) = .next u ∧ u.err = .none ∧ u.res = false ∧
        (j + 1 = (s.selLen sel).val → u.result = t.result) ∧
        (j + 1 < (s.selLen sel).val →
          u.result.toNat = (t.result.toNat + 2 ^ k) % 256 ∨ t.result.toNat = (u.result.toNat + 2 ^ k) % 256)) ∧
    (∀ j j' : Nat, j < j' → j' + 1 < (s.selLen sel).val →
      (s.selByte sel j).getLsbD 7 = false → (s.selByte sel j').getLsbD 7 = false →
      ∃ u, exec (.ckCheck8 sel) (flipBit sel (flipBit sel s j 7) j' 7) = .next u ∧ u.res = true)

/-- R114, R80: a sequence followed by its own CRC16 trailer, low byte first, has CRC 0, and no other two bytes do that. -/
def Obligations.CrcOfFrameWithTrailerIsZero : Prop :=
  ∀ (bs : List Byte) (lo hi : Byte), crc16 (bs ++ [lo, hi]) = 0#16 ↔ [lo, hi] = crcTrailer (crc16 bs)

/-! ### Frame codecs -/

/-- R130, R97: MB_BUILD writes the request frame with the trailer that CTRL.MBCK selects, sets TXLEN to 7 or 8, and changes no
other byte or register. -/
def Obligations.MbBuildWritesTheRequest : Prop :=
  ∀ s : State, ∃ t, exec .mbBuild s = .next t ∧
    t = { s with engine := .idle, done := true, err := .none, res := true, result := t.result, txlen := t.txlen, mem := t.mem } ∧
    t.txByte 0 = s.mbSlave ∧ t.txByte 1 = s.mbFunc ∧
    be16 (t.txByte 2) (t.txByte 3) = s.mbStart.toNat ∧ be16 (t.txByte 4) (t.txByte 5) = s.mbCount.toNat ∧
    (s.mbck = false → t.txlen.val = 7 ∧ t.result.toNat = byteSum (t.readBytes Config.txBase 6) % 256 ∧
      (t.txByte 6).toNat = t.result.toNat) ∧
    (s.mbck = true → t.txlen.val = 8 ∧ t.result = (crc16 (t.readBytes Config.txBase 6)).setWidth 32 ∧
      (t.txByte 6).toNat + 256 * (t.txByte 7).toNat = t.result.toNat) ∧
    (∀ a, ¬ (Config.txBase ≤ a ∧ a < Config.txBase + t.txlen.val) → t.byteAt a = s.byteAt a)

/-- R131, R132, R133: MB_PARSE's outcome in the order of its checks; the frame is the first 3 + N + T bytes. -/
def Obligations.MbParseOutcome : Prop :=
  ∀ s : State, ∃ t, exec .mbParse s = .next t ∧
    t = { s with
      engine := .idle, done := true, err := t.err, res := t.res, result := t.result, parse := t.parse, pv := t.pv } ∧
    (let n := (s.rxByte 2).toNat
     let fl := 3 + n + (if s.mbck = true then 2 else 1)
     let body := s.readBytes Config.rxBase (3 + n)
     let valid := if s.mbck = true
       then (s.rxByte (3 + n)).toNat + 256 * (s.rxByte (4 + n)).toNat = (crc16 body).toNat
       else (s.rxByte (3 + n)).toNat = byteSum body % 256
     let trailer := if s.mbck = true then (crc16 body).toNat else byteSum body % 256
     if s.rxlen.val = 0 then t.err = .noResponse ∧ t.res = false ∧ t.result = 0#32 ∧ t.parse = ParseRegs.zero ∧ t.pv = .none
     else if s.rxlen.val < 3 ∨ s.rxlen.val < fl then
       t.err = .incomplete ∧ t.res = false ∧ t.result = 0#32 ∧ t.parse = ParseRegs.zero ∧ t.pv = .none
     else if valid then
       t.err = .none ∧ t.res = true ∧ t.result.toNat = trailer ∧ t.pv = .modbus ∧
         t.parse.addr.toNat = (s.rxByte 0).toNat ∧ t.parse.func = s.rxByte 1 ∧ t.parse.src = 0#16 ∧
         t.parse.bcnt.toNat = n ∧ t.parse.off.toNat = 3 ∧ t.parse.len.toNat = n ∧ t.parse.flen.toNat = fl
     else t.err = .checksumMismatch ∧ t.res = false ∧ t.result.toNat = trailer ∧ t.parse = ParseRegs.zero ∧ t.pv = .none)

/-- R136, R156: a received sequence shorter than the declared length never gives a payload: it ends in a length error with
PV = 0, for both parses. -/
def Obligations.ShortFramesNeverParse : Prop :=
  (∀ s : State, s.rxlen.val < 3 + (s.rxByte 2).toNat + trailerLen s.mbck →
    ∃ t, exec .mbParse s = .next t ∧ t.pv = .none ∧ (t.err = .noResponse ∨ t.err = .incomplete)) ∧
  (∀ (s : State) (c : Byte), s.rxlen.val < max (s.minLen c) 6 →
    ∃ t, exec (.vbParse c) s = .next t ∧ t.pv = .none ∧ (t.err = .noResponse ∨ t.err = .tooShort))

/-- R135: the source's frame `FF 03 02 00 02 10 51` in RXB is a checksum mismatch with RESULT = 0x06 under MBCK = 0; and it
parses under MBCK = 1 with RESULT = 0x5110. -/
def Obligations.SourceFrameParsesOnlyAsCrc16 : Prop :=
  ∀ s : State, s.rxlen.val = 7 →
    s.readBytes Config.rxBase 7 = [0xFF#8, 0x03#8, 0x02#8, 0x00#8, 0x02#8, 0x10#8, 0x51#8] →
    (s.mbck = false → ∃ t, exec .mbParse s = .next t ∧ t.err = .checksumMismatch ∧ t.result = 0x06#32 ∧ t.pv = .none) ∧
    (s.mbck = true → ∃ t, exec .mbParse s = .next t ∧ t.err = .none ∧ t.result = 0x5110#32 ∧ t.pv = .modbus ∧
      t.parse = ⟨0xFF#16, 0x03#8, 0#16, 2#10, 3#10, 2#10, 7#10⟩)

/-- R151, R152: VB_MINLEN answers with the MINLEN of the valid CMDT entry of least index whose CODE is `c`, 1 without one, and
changes nothing else; the filler of a request is that entry's F0, 0 without one. -/
def Obligations.VbMinlenIsTheTableLookup : Prop :=
  ∀ (s : State) (c : Byte), ∃ t, exec (.vbMinlen c) s = .next t ∧
    t = { s with engine := .idle, done := true, err := .none, res := true, result := t.result } ∧
    (∀ j : Fin 16, s.cmdt[j].valid = true → s.cmdt[j].code = c →
      (∀ i : Fin 16, i < j → ¬ (s.cmdt[i].valid = true ∧ s.cmdt[i].code = c)) →
      t.result.toNat = s.cmdt[j].minlen.toNat ∧ s.minLen c = s.cmdt[j].minlen.toNat ∧ s.filler0 c = s.cmdt[j].f0) ∧
    ((∀ j : Fin 16, ¬ (s.cmdt[j].valid = true ∧ s.cmdt[j].code = c)) →
      t.result = 1#32 ∧ s.minLen c = 1 ∧ s.filler0 c = 0#8)

/-- R150, R99: VB_BUILD writes the nine-byte request with its ADD8 checksum, sets TXLEN to 9, and changes no other byte or
register. -/
def Obligations.VbBuildWritesTheRequest : Prop :=
  ∀ (c : Byte) (s : State), ∃ t, exec (.vbBuild c) s = .next t ∧
    t = { s with engine := .idle, done := true, err := .none, res := true, result := t.result, txlen := t.txlen, mem := t.mem } ∧
    t.txlen.val = 9 ∧
    leValue [t.txByte 0, t.txByte 1] = s.vbDest.toNat ∧ leValue [t.txByte 2, t.txByte 3] = s.vbSrc.toNat ∧
    t.txByte 4 = c ∧ t.txByte 5 = s.filler0 c ∧ t.txByte 6 = 0#8 ∧ t.txByte 7 = 0#8 ∧
    t.result.toNat = byteSum (t.readBytes Config.txBase 8) % 256 ∧ (t.txByte 8).toNat = t.result.toNat ∧
    (∀ a, ¬ (Config.txBase ≤ a ∧ a < Config.txBase + 9) → t.byteAt a = s.byteAt a)

/-- R153, R154: VB_PARSE's outcome in the order of its checks. -/
def Obligations.VbParseOutcome : Prop :=
  ∀ (c : Byte) (s : State), ∃ t, exec (.vbParse c) s = .next t ∧
    t = { s with
      engine := .idle, done := true, err := t.err, res := t.res, result := t.result, parse := t.parse, pv := t.pv } ∧
    (let l := s.rxlen.val
     let sum := byteSum (s.readBytes Config.rxBase (l - 1)) % 256
     if l = 0 then t.err = .noResponse ∧ t.res = false ∧ t.result = 0#32 ∧ t.parse = ParseRegs.zero ∧ t.pv = .none
     else if l < max (s.minLen c) 6 then
       t.err = .tooShort ∧ t.res = false ∧ t.result = 0#32 ∧ t.parse = ParseRegs.zero ∧ t.pv = .none
     else if (s.rxByte (l - 1)).toNat = sum then
       t.err = .none ∧ t.res = true ∧ t.result.toNat = sum ∧ t.pv = .vendorB ∧
         t.parse.addr.toNat = leValue [s.rxByte 0, s.rxByte 1] ∧ t.parse.src.toNat = leValue [s.rxByte 2, s.rxByte 3] ∧
         t.parse.func = s.rxByte 4 ∧ t.parse.off.toNat = 5 ∧ t.parse.len.toNat = l - 6 ∧ t.parse.bcnt.toNat = l - 6 ∧
         t.parse.flen.toNat = l
     else t.err = .checksumMismatch ∧ t.res = false ∧ t.result.toNat = sum ∧ t.parse = ParseRegs.zero ∧ t.pv = .none)

/-- R121: CTRL.MBCK has no effect on the Vendor-B operations: two states that differ only in MBCK give the same outcome but
for MBCK. -/
def Obligations.VendorBIgnoresMbck : Prop :=
  ∀ (s t : State) (i : Instr) (b : Bool),
    (∃ c, i = .vbBuild c ∨ i = .vbMinlen c ∨ i = .vbParse c) ∨ i = .fdDecodeVb ∨ i = .scClassVb →
    exec i s = .next t → exec i { s with mbck := b } = .next { t with mbck := b }

/-! ### The field decoder -/

/-- R173, R174, R212: a decode without its variant's parsed payload is NO_PAYLOAD, with the slots, DEC_INFO and everything else
unchanged. -/
def Obligations.DecodeWithoutPayloadIsNoPayload : Prop :=
  ∀ s : State,
    (s.pv ≠ .modbus → exec .fdDecodeMb s = .next { s with
      engine := .idle, done := true, err := .noPayload, res := false, result := 0#32 }) ∧
    (s.pv ≠ .vendorB → exec .fdDecodeVb s = .next { s with
      engine := .idle, done := true, err := .noPayload, res := false, result := 0#32 })

/-- What a decode that succeeded leaves (R170, R172): slot k holds the sum of the raw values of the descriptors that name it,
over the scale they share; a slot that none names is empty; RESULT is how many were applied. -/
def DecodedTo (s t : State) (n : Nat) (raw : Fin 32 → Nat) (odd trunc : Bool) : Prop :=
  t = { s with
    engine := .idle, done := true, err := .none, res := true, result := t.result, slots := t.slots
    decInfo := ⟨.none, 0#5, odd, trunc⟩ } ∧
  t.result.toNat = ((indicesBelow n).filter (fun i => s.fdesc[i].active)).length ∧
  ∀ k : Fin 32,
    (contributors s.fdesc n k = [] → t.slots[k] = Slot.empty) ∧
    (∀ i ∈ contributors s.fdesc n k, t.slots[k].valid = true ∧ t.slots[k].den = s.fdesc[i].scale) ∧
    t.slots[k].num.toNat = rawSum raw (contributors s.fdesc n k)

/-- R173, R176, R172: with a Modbus-style payload latched and the descriptors of its words consistent, FD_DECODE_MB succeeds
and every slot holds the sum of its words over their scale. -/
def Obligations.FdDecodeMbOfConsistentTable : Prop :=
  ∀ s : State, s.pv = .modbus → tableConsistent s.fdesc (min (s.parse.len.toNat / 2) 32) →
    ∃ t, exec .fdDecodeMb s = .next t ∧
      DecodedTo s t (min (s.parse.len.toNat / 2) 32) (payloadWord s)
        (decide (s.parse.len.toNat % 2 = 1)) (decide (32 < s.parse.len.toNat / 2))

/-- R174, R176, R172: with a Vendor-B payload latched and the table consistent, FD_DECODE_VB succeeds and every slot holds the
sum of its little-endian fields over their scale. -/
def Obligations.FdDecodeVbOfConsistentTable : Prop :=
  ∀ s : State, s.pv = .vendorB → tableConsistent s.fdesc 32 → fieldsWithin s.fdesc s.parse.len.toNat →
    ∃ t, exec .fdDecodeVb s = .next t ∧ DecodedTo s t 32 (payloadField s) false false

/-- R170, R171, R212: a decode with its payload latched that does not succeed is DECODE_INCONSISTENCY; it empties every slot, and
DEC_INFO names the first descriptor, in index order, that fails a check and the first check it fails: the descriptors below it are
consistent and (FD_DECODE_VB) have a width and lie in the payload, and its own earlier checks pass (BAD_SCALE, then BAD_WIDTH and
OUT_OF_RANGE, then the kind checks). -/
def Obligations.InconsistentDecodeReportsAndClears : Prop :=
  ∀ s t : State,
    (s.pv = .modbus → exec .fdDecodeMb s = .next t → t.err ≠ .none →
      t = { s with
        engine := .idle, done := true, err := .decodeInconsistency, res := false, result := 0#32, slots := emptyWork.slots
        decInfo := t.decInfo } ∧
      (∀ k : Fin 32, t.slots[k] = Slot.empty) ∧
      t.decInfo.odd = decide (s.parse.len.toNat % 2 = 1) ∧ t.decInfo.trunc = decide (32 < s.parse.len.toNat / 2) ∧
      ∃ i : Fin 32, i.val < s.parse.len.toNat / 2 ∧ t.decInfo.index.toNat = i.val ∧ FirstStop s false i t.decInfo.reason) ∧
    (s.pv = .vendorB → exec .fdDecodeVb s = .next t → t.err ≠ .none →
      t = { s with
        engine := .idle, done := true, err := .decodeInconsistency, res := false, result := 0#32, slots := emptyWork.slots
        decInfo := t.decInfo } ∧
      (∀ k : Fin 32, t.slots[k] = Slot.empty) ∧
      t.decInfo.odd = false ∧ t.decInfo.trunc = false ∧
      ∃ i : Fin 32, t.decInfo.index.toNat = i.val ∧ FirstStop s true i t.decInfo.reason)

/-- R176: a decode with its payload latched succeeds exactly when the table is consistent. -/
def Obligations.DecodeSucceedsIffTableConsistent : Prop :=
  ∀ s t : State,
    (s.pv = .modbus → exec .fdDecodeMb s = .next t →
      (t.err = .none ↔ tableConsistent s.fdesc (min (s.parse.len.toNat / 2) 32))) ∧
    (s.pv = .vendorB → exec .fdDecodeVb s = .next t →
      (t.err = .none ↔ tableConsistent s.fdesc 32 ∧ fieldsWithin s.fdesc s.parse.len.toNat))

/-- R177: a SIMPLE and then a CONT descriptor on one slot, same non-zero scale, over a two-word payload (w1, w2): the slot holds
w1 + w2 over the scale. -/
def Obligations.SimpleThenContAddsTheWords : Prop :=
  ∀ s : State, s.pv = .modbus → s.parse.len = 4#10 →
    s.fdesc[(0 : Fin 32)].kind = .simple → s.fdesc[(1 : Fin 32)].kind = .cont →
    s.fdesc[(1 : Fin 32)].slot = s.fdesc[(0 : Fin 32)].slot →
    s.fdesc[(1 : Fin 32)].scale = s.fdesc[(0 : Fin 32)].scale → s.fdesc[(0 : Fin 32)].scale ≠ 0#16 →
    ∃ t, exec .fdDecodeMb s = .next t ∧ t.err = .none ∧ t.result = 2#32 ∧
      t.slots[s.fdesc[(0 : Fin 32)].slot].valid = true ∧
      t.slots[s.fdesc[(0 : Fin 32)].slot].num.toNat = payloadWord s 0 + payloadWord s 1 ∧
      t.slots[s.fdesc[(0 : Fin 32)].slot].den = s.fdesc[(0 : Fin 32)].scale

/-- R170: every decode starts from empty slots: what the slots, DEC_INFO, ERR, RES and RESULT held before has no influence on
what a decode that passes its PV check leaves. -/
def Obligations.DecodeStartsFromAFreshSample : Prop :=
  ∀ (s : State) (slots : Vector Slot 32) (d : DecInfo) (e : Err) (r : Bool) (x : Word),
    (s.pv = .modbus →
      exec .fdDecodeMb { s with slots := slots, decInfo := d, err := e, res := r, result := x } = exec .fdDecodeMb s) ∧
    (s.pv = .vendorB →
      exec .fdDecodeVb { s with slots := slots, decInfo := d, err := e, res := r, result := x } = exec .fdDecodeVb s)

/-! ### The classifier -/

/-- R190: the exact-match table, and nothing else changed. -/
def Obligations.ScClassMbIsTheExactMatch : Prop :=
  ∀ s : State, ∃ t, exec .scClassMb s = .next t ∧
    t = { s with engine := .idle, done := true, err := .none, res := true, result := t.result, scClass := t.scClass } ∧
    t.result = (classCode t.scClass).setWidth 32 ∧
    (s.scIn = 0#32 → t.result = 0x01#32) ∧ (s.scIn = 1#32 → t.result = 0x02#32) ∧
    (2 ≤ s.scIn.toNat → t.result = 0xFF#32)

/-- R191: zero is "in operation"; otherwise the first condition of the precedence list whose mask meets SC_IN wins, and without
one the class is unknown; nothing else changed. With the default masks of R193 the class is 0x10 plus the lowest set bit. -/
def Obligations.ScClassVbFirstMatchWins : Prop :=
  ∀ s : State, ∃ t, exec .scClassVb s = .next t ∧
    t = { s with engine := .idle, done := true, err := .none, res := true, result := t.result, scClass := t.scClass } ∧
    t.result = (classCode t.scClass).setWidth 32 ∧
    (s.scIn = 0#32 → t.result = 0x02#32) ∧
    (∀ k : Fin 12, s.scIn &&& s.params.vbMask k ≠ 0#32 → (∀ j : Fin 12, j < k → s.scIn &&& s.params.vbMask j = 0#32) →
      t.result.toNat = 0x10 + k.val) ∧
    (s.scIn ≠ 0#32 → (∀ k : Fin 12, s.scIn &&& s.params.vbMask k = 0#32) → t.result = 0xFF#32) ∧
    (s.params = Params.default →
      (∀ k < 12, s.scIn.getLsbD k = true → (∀ j < k, s.scIn.getLsbD j = false) → t.result.toNat = 0x10 + k) ∧
      (s.scIn ≠ 0#32 → (∀ k < 12, s.scIn.getLsbD k = false) → t.result = 0xFF#32))

/-- R195: SC_IN = 0x009 gives class 0x10, whatever the masks that the source does not fix. -/
def Obligations.SourceBitmaskExample : Prop :=
  ∀ s : State, s.scIn = 0x009#32 → ∃ t, exec .scClassVb s = .next t ∧
    t.scClass = .cond 0 ∧ t.result = 0x10#32 ∧ t.err = .none

/-! ### The bus -/

/-- R74: a bus read changes nothing of the block: the host's move of reading changes only the host's variable and the reply, which
are the model's own fields (assumptions 3, 7). -/
def Obligations.ReadsHaveNoSideEffect : Prop :=
  ∀ (s t : State) (off : Nat) (lanes : BitVec 4) (into : Nat),
    s.playMove (.read off lanes into) = .next t →
    t = { s with vars := t.vars, reply := t.reply } ∧
    (∃ d r, t.reply = some (.readData d r) ∧ lookupAt t.vars into = some d ∧ s.busRead off lanes = .ok (d, r))

/-- R71, R73, R219: an access inside the window gets ERROR exactly when it is narrow, partial or misaligned or goes to a reserved
offset; then a write changes nothing and a read returns 0. That this holds while BUSY = 1 too, WBZ left alone, is the model's
reading (DEDUCED, assumption 14). -/
def Obligations.IllFormedAndReservedAccessesGetError : Prop :=
  ∀ (s : State) (off : Nat) (lanes : BitVec 4) (d : Word), off < 0x800 →
    ((off % 4 ≠ 0 ∨ lanes ≠ 0xF#4 ∨ reservedOffset off) →
      s.busWrite off lanes d = .ok (s, .error) ∧ s.busRead off lanes = .ok (0#32, .error)) ∧
    (off % 4 = 0 → lanes = 0xF#4 → ¬ reservedOffset off →
      (∃ t, s.busWrite off lanes d = .ok (t, .okay)) ∧ (∃ v, s.busRead off lanes = .ok (v, .okay)))

/-- R73, R21: a read-only register takes a write with OKAY and ignores it (BUSY = 0); and ID always reads 0x53430001. -/
def Obligations.ReadOnlyRegistersIgnoreWrites : Prop :=
  (∀ (s : State) (off : Nat) (d : Word), s.engine = .idle → readOnlyOffset off →
    s.busWrite off 0xF#4 d = .ok (s, .okay)) ∧
  (∀ s : State, s.busRead 0x000 0xF#4 = .ok (0x53430001#32, .okay))

/-- R29, R36, R37, R39, R41-R44: what the bus reads at the read-only output registers, in every state: the value of the register the
offset names, in its bits, the bits that are not named 0; and the numbers of the PV, REASON and class codes. -/
def Obligations.OutputRegistersReadTheirFields : Prop :=
  (∀ s : State,
    s.busRead 0x01C 0xF#4 = .ok (s.result, .okay) ∧
    s.busRead 0x040 0xF#4 = .ok (s.parse.addr.setWidth 32, .okay) ∧
    s.busRead 0x044 0xF#4 = .ok (s.parse.func.setWidth 32, .okay) ∧
    s.busRead 0x048 0xF#4 = .ok (s.parse.src.setWidth 32, .okay) ∧
    s.busRead 0x04C 0xF#4 = .ok (s.parse.bcnt.setWidth 32, .okay) ∧
    s.busRead 0x050 0xF#4 = .ok (s.parse.off.setWidth 32, .okay) ∧
    s.busRead 0x054 0xF#4 = .ok (s.parse.len.setWidth 32, .okay) ∧
    s.busRead 0x058 0xF#4 = .ok (s.parse.flen.setWidth 32, .okay) ∧
    s.busRead 0x05C 0xF#4 = .ok ((pvCode s.pv).setWidth 32, .okay) ∧
    s.busRead 0x064 0xF#4 = .ok ((classCode s.scClass).setWidth 32, .okay) ∧
    (∃ v, s.busRead 0x068 0xF#4 = .ok (v, .okay) ∧
      v.extractLsb' 0 3 = reasonCode s.decInfo.reason ∧ v.extractLsb' 3 5 = 0#5 ∧ v.extractLsb' 8 5 = s.decInfo.index ∧
      v.extractLsb' 13 3 = 0#3 ∧ v.getLsbD 16 = s.decInfo.odd ∧ v.getLsbD 17 = s.decInfo.trunc ∧ v.extractLsb' 18 14 = 0#14) ∧
    (∃ v, s.busRead 0x06C 0xF#4 = .ok (v, .okay) ∧ ∀ k : Fin 32, v.getLsbD k.val = s.slots[k].valid) ∧
    (∀ k : Fin 32, s.busRead (0x100 + 4 * k.val) 0xF#4 = .ok (s.slots[k].num, .okay)) ∧
    (∀ k : Fin 32, s.busRead (0x180 + 4 * k.val) 0xF#4 = .ok (s.slots[k].den.setWidth 32, .okay))) ∧
  pvCode .none = 0#2 ∧ pvCode .modbus = 1#2 ∧ pvCode .vendorB = 2#2 ∧
  reasonCode .none = 0#3 ∧ reasonCode .contNoPrior = 1#3 ∧ reasonCode .simpleDuplicate = 2#3 ∧ reasonCode .scaleMismatch = 3#3 ∧
  reasonCode .outOfRange = 4#3 ∧ reasonCode .badWidth = 5#3 ∧ reasonCode .badScale = 6#3 ∧
  classCode .none = 0x00#8 ∧ classCode .notRunning = 0x01#8 ∧ classCode .inOperation = 0x02#8 ∧ classCode .unknown = 0xFF#8 ∧
  (∀ k : Fin 12, (classCode (.cond k)).toNat = 0x10 + k.val)

/-- R57, R23: while BUSY = 1 a write to a mapped offset is dropped and sets WBZ, changing nothing else, but for STATUS (applied),
CMD (sets OVR) and CTRL with SRST = 1 (soft reset); each gets OKAY. That a read-only register, and CTRL with SRST = 0, set WBZ too
(DEDUCED, assumption 13) and that the soft reset gets OKAY (DEDUCED, assumption 12) are the model's reading. -/
def Obligations.WriteLockWhileBusy : Prop :=
  ∀ (s : State) (off : Nat) (d : Word), s.busy = true → off < 0x800 → off % 4 = 0 → ¬ reservedOffset off →
    s.busWrite off 0xF#4 d = .ok
      (if off = 0x00C then s.writeStatus d
       else if off = 0x008 then { s with ovr := true }
       else if off = 0x004 ∧ d.getLsbD 2 = true then s.softReset
       else { s with wbz := true }, .okay)

/-- R23, R25(1): a CMD write with BUSY = 0 latches bits [15:0], shows them in CMD, sets BUSY with at least one turn to go, does
not clear DONE, and changes nothing else of the block; CMD reads back the word's low half. The draw counter is the model's
(assumption 2). -/
def Obligations.CmdWriteIssuesACommand : Prop :=
  ∀ (s : State) (w : Word), s.engine = .idle → ∃ t left,
    s.busWrite 0x008 0xF#4 w = .ok (t, .okay) ∧ 1 ≤ left ∧
    t = { s with cmd := w.setWidth 16, engine := .running (w.setWidth 16) left, draws := s.draws + 1 } ∧
    t.busy = true ∧ t.busRead 0x008 0xF#4 = .ok (w &&& 0x0000FFFF#32, .okay)

/-- R24: a STATUS write clears the W1C bits whose data bits are 1 and changes nothing else that STATUS shows, in the block's
every state, BUSY or not. -/
def Obligations.StatusWriteClearsItsBits : Prop :=
  ∀ (s t : State) (d : Word), s.busWrite 0x00C 0xF#4 d = .ok (t, .okay) →
    t.statusWord = s.statusWord &&& ~~~(d &&& 0x0000001E#32) ∧
    t = { s with done := t.done, ovr := t.ovr, wbz := t.wbz, rxovf := t.rxovf }

/-- R24, R213: where each STATUS field stands, that the reserved bits read 0, that RETRY is 1 exactly when ERR is 1, 2, 3 or 4, and
that ERR codes 9-15 do not occur; and R211's numbers of the codes. -/
def Obligations.StatusLayout : Prop :=
  ∀ s : State,
    s.statusWord.getLsbD 0 = s.busy ∧ s.statusWord.getLsbD 1 = s.done ∧ s.statusWord.getLsbD 2 = s.ovr ∧
    s.statusWord.getLsbD 3 = s.wbz ∧ s.statusWord.getLsbD 4 = s.rxovf ∧ s.statusWord.getLsbD 5 = s.res ∧
    s.statusWord.getLsbD 6 = retryOf s.err ∧ s.statusWord.getLsbD 7 = false ∧
    s.statusWord.extractLsb' 8 4 = errCode s.err ∧ s.statusWord.extractLsb' 12 20 = 0#20 ∧
    s.busRead 0x00C 0xF#4 = .ok (s.statusWord, .okay) ∧
    (s.statusWord.getLsbD 6 = true ↔ (s.statusWord.extractLsb' 8 4).toNat ∈ [1, 2, 3, 4]) ∧
    (s.statusWord.extractLsb' 8 4).toNat ≤ 8 ∧
    [Err.none, .noResponse, .incomplete, .tooShort, .checksumMismatch, .decodeInconsistency, .illegalOpcode, .noPayload,
      .bufferOverflow].map errCode = [0#4, 1#4, 2#4, 3#4, 4#4, 5#4, 6#4, 7#4, 8#4]

/-- R26, R27: RXLEN and TXLEN store min(d[9:0], 512); the RXLEN write clears PV; nothing else changes; both read back, hold at
most 512 in every state, and are 0 at reset. -/
def Obligations.LengthRegistersClamp : Prop :=
  State.reset.rxlen.val = 0 ∧ State.reset.txlen.val = 0 ∧ (∀ s : State, s.rxlen.val ≤ 512 ∧ s.txlen.val ≤ 512) ∧
  ∀ (s : State) (d : Word), s.engine = .idle →
    (∃ t, s.busWrite 0x010 0xF#4 d = .ok (t, .okay) ∧ t = { s with rxlen := t.rxlen, pv := .none } ∧
      t.rxlen.val = min (d.toNat % 1024) 512 ∧ t.busRead 0x010 0xF#4 = .ok (BitVec.ofNat 32 t.rxlen.val, .okay)) ∧
    (∃ t, s.busWrite 0x014 0xF#4 d = .ok (t, .okay) ∧ t = { s with txlen := t.txlen } ∧
      t.txlen.val = min (d.toNat % 1024) 512 ∧ t.busRead 0x014 0xF#4 = .ok (BitVec.ofNat 32 t.txlen.val, .okay))

/-- R28: RXPUSH below 512 bytes stores d[7:0] at index RXLEN, raises RXLEN and clears PV; at 512 it changes no byte and no length
and sets RXOVF. It reads 0. -/
def Obligations.RxPushAppendsAByte : Prop :=
  ∀ (s : State) (d : Word), s.engine = .idle →
    (s.rxlen.val < 512 → ∃ t, s.busWrite 0x018 0xF#4 d = .ok (t, .okay) ∧
      t = { s with rxlen := t.rxlen, pv := .none, mem := t.mem } ∧ t.rxlen.val = s.rxlen.val + 1 ∧
      (t.rxByte s.rxlen.val).toNat = d.toNat % 256 ∧
      (∀ a, a ≠ Config.rxBase + s.rxlen.val → t.byteAt a = s.byteAt a)) ∧
    (s.rxlen.val = 512 → s.busWrite 0x018 0xF#4 d = .ok ({ s with rxovf := true }, .okay)) ∧
    s.busRead 0x018 0xF#4 = .ok (0#32, .okay)

/-- R70, R46, R47, R38: a write of a buffer word puts byte lane k at buffer index 4w + k and no other byte, reads back whole, and
clears PV for RXB only. -/
def Obligations.BufferWordsAreLittleEndianLanes : Prop :=
  ∀ (s : State) (sel : Sel) (w : Nat) (d : Word), s.engine = .idle → w < 128 →
    ∃ t, s.busWrite (selBase sel + 4 * w) 0xF#4 d = .ok (t, .okay) ∧
      t = { s with mem := t.mem, pv := if sel = .rxb then .none else s.pv } ∧
      (∀ k < 4, t.selByte sel (4 * w + k) = d.extractLsb' (8 * k) 8) ∧
      (∀ a, ¬ (selBase sel + 4 * w ≤ a ∧ a < selBase sel + 4 * w + 4) → t.byteAt a = s.byteAt a) ∧
      t.busRead (selBase sel + 4 * w) 0xF#4 = .ok (d, .okay)

/-- R30-R35, R39, R48, R49, R51: a write to a build input, SC_IN or a table word reads back with its reserved bits dropped, and
every other mapped offset reads as before. -/
def Obligations.InputsAndTablesReadBack : Prop :=
  ∀ (s : State) (off : Nat) (d : Word), s.engine = .idle → inputOffset off →
    ∃ t, s.busWrite off 0xF#4 d = .ok (t, .okay) ∧ t.busRead off 0xF#4 = .ok (d &&& keptBits off, .okay) ∧
      (∀ off' lanes, off' ≠ off → t.busRead off' lanes = s.busRead off' lanes) ∧
      t.engine = s.engine ∧ t.host = s.host ∧ t.vars = s.vars ∧ t.params = s.params ∧ t.draws = s.draws

/-- R22, R231, R232: a CTRL write with data bit 2 set, BUSY or not and whatever its other bits, resets every register and table,
discards the operation in flight, leaves RXB and TXB alone and does not set DONE; with data bit 2 clear and BUSY = 0 it stores
IE and MBCK and nothing else, and CTRL reads back bits [1:0]. That the write with bit 2 set gets OKAY and leaves the host's side of
the state alone is the model's reading (DEDUCED, assumption 12). -/
def Obligations.CtrlWriteStoresOrSoftResets : Prop :=
  ∀ (s : State) (d : Word),
    (d.getLsbD 2 = true → ∃ t, s.busWrite 0x004 0xF#4 d = .ok (t, .okay) ∧
      t = { State.reset with
        mem := s.mem, bufDraw := s.bufDraw, params := s.params, draws := s.draws, vars := s.vars, host := s.host
        reply := s.reply } ∧
      (∀ a, t.byteAt a = s.byteAt a)) ∧
    (s.engine = .idle → d.getLsbD 2 = false → ∃ t, s.busWrite 0x004 0xF#4 d = .ok (t, .okay) ∧
      t = { s with ie := d.getLsbD 0, mbck := d.getLsbD 1 } ∧ t.busRead 0x004 0xF#4 = .ok (d &&& 0x00000003#32, .okay))

/-- R230, R20, R55: after power-on every mapped offset but the buffers' reads its reset value (ID its constant, CTRL 2, all others
0), BUSY = 0, IRQ = 0, and each buffer byte is a free draw (the draw's form is the model's, assumption 5). The same of a power-on of
a running machine, in every state, BUSY or not: every register and table as after reset, the buffer bytes the next draw (power-on as
a move of the host, and the host's side and the parameters left alone, are the model's choice, assumption 10). -/
def Obligations.ResetValues : Prop :=
  (State.reset.engine = .idle ∧ State.reset.irq = false ∧
    (∀ off, off < 0x400 → off % 4 = 0 → ¬ reservedOffset off →
      State.reset.busRead off 0xF#4 = .ok (resetWord off, .okay)) ∧
    (∀ a, State.reset.byteAt a = Config.freeByte 0 a)) ∧
  (∀ s : State, ∃ t, s.playMove .powerOn = .next t ∧
    t = { State.reset with
      params := s.params, bufDraw := s.draws, draws := s.draws + 1, vars := s.vars, host := s.host } ∧
    t.busy = false ∧ t.irq = false ∧
    (∀ off, off < 0x400 → off % 4 = 0 → ¬ reservedOffset off → t.busRead off 0xF#4 = .ok (resetWord off, .okay)) ∧
    (∀ a, t.byteAt a = Config.freeByte s.draws a))

/-- R53, R214, R215: a completion raises IRQ exactly when IE = 1; writing 1 to DONE or masking IE lowers it. When the host's clear
of DONE plays before a completion, DONE is 1 afterwards; when it plays after it, DONE is 0. Which of the two plays first is the
model's turn (assumption 1). -/
def Obligations.IrqFollowsEnableAndDone : Prop :=
  (∀ (i : Instr) (s t : State), exec i s = .next t → t.irq = s.ie) ∧
  (∀ (s t : State) (d : Word), d.getLsbD 1 = true → s.busWrite 0x00C 0xF#4 d = .ok (t, .okay) → t.irq = false) ∧
  (∀ (s t : State) (d : Word), s.engine = .idle → d.getLsbD 0 = false → s.busWrite 0x004 0xF#4 d = .ok (t, .okay) →
    t.irq = false) ∧
  (∀ (s : State) (p : Half) (rest : List HostMove), s.host = hostWr 0x00C 0x2#32 :: rest →
    (s.engine = .running p 2 → ∃ t : State, Host.Core.run Sys2Proof.core 2 s = .next t ∧
        t.done = true ∧ t.engine = .idle ∧ t.host = rest) ∧
    (s.engine = .running p 1 → ∃ t : State, Host.Core.run Sys2Proof.core 2 s = .next t ∧
        t.done = false ∧ t.engine = .idle ∧ t.host = rest))

/-! ### Whole-machine statements -/

/-- R37, R38: in every step PV is set to 0 by exactly the listed events, set to 1 or 2 by a successful MB_PARSE or VB_PARSE, and
unchanged otherwise. -/
def Obligations.PvChangesOnlyByTheListedEvents : Prop :=
  ∀ s t : State, step s = .next t →
    (PvClearingEvent s t → t.pv = .none) ∧
    (s.completing .mbParse → t.err = .none → t.pv = .modbus) ∧
    (∀ c, s.completing (.vbParse c) → t.err = .none → t.pv = .vendorB) ∧
    (¬ PvClearingEvent s t → ¬ s.completing .mbParse → (∀ c, ¬ s.completing (.vbParse c)) → t.pv = s.pv)

/-- The invariant holds after power-on reset, and the host's empty program has a meaning at every move (assumption 3). -/
def Obligations.ResetMeetsTheInvariant : Prop :=
  State.reset.Inv ∧ State.reset.hostSound

/-- R37, R45, R54, R56: every step keeps the invariant: the buffer memory in canonical form; PCMD equal to CMD; PV = 1 or 2 only
over a frame that stands in RXB with a valid trailer and is what the P_* registers describe; slots sound and bounded. -/
def Obligations.StepKeepsTheInvariant : Prop :=
  ∀ s t : State, s.Inv → step s = .next t → t.Inv

/-- R6, R210: from a host program with a meaning at every move, no step stops, and what is left of the program still has a
meaning at every move. From any state, no step refuses, and a step faults only in the host's turn, by a bus access outside
the window or by a variable that no read has set. The two faults are the model's choice (assumptions 7, 8); so is that the host goes
on after an access that gets ERROR, which such a program may hold (assumption 16). -/
def Obligations.SoundHostProgramsNeverStop : Prop :=
  (∀ s : State, s.hostSound → ∃ t, step s = .next t ∧ t.hostSound) ∧
  (∀ (s : State) (r : Refusal), step s ≠ .refused r) ∧
  (∀ (s : State) (f : Fault), step s = .fault f → s.turn = .host ∧
    ∃ m, s.host.head? = some m ∧ (m.insideWindow = false ∨ m.varsIn (s.vars.map (·.1)) = false))

/-- R25, R57, R84, R210, R246: while an operation with n + 1 turns to go is in flight and the host neither powers on nor writes
CTRL, after n steps exactly its last turn is left and every input of the operation is as it was; the next step completes it. The
countdown in turns and the host's list of moves are the model's choice (assumptions 1, 2, 3). -/
def Obligations.InputsHoldUntilCompletion : Prop :=
  (∀ (n : Nat) (s t : State) (p : Half),
    s.engine = .running p (n + 1) → (∀ m ∈ s.host.take n, m.mayReset = false) →
    Host.Core.run Sys2Proof.core n s = .next t →
    t.engine = .running p 1 ∧ SameInputs s t ∧
      ∃ u, step t = .next u ∧ u.busy = false ∧ u.done = true) ∧
  (∀ (n : Nat) (s : State) (p : Half), s.engine = .running p (n + 1) → s.host = [] →
    ∃ u : State, Host.Core.run Sys2Proof.core (n + 1) s = .next u ∧ u.busy = false ∧ u.done = true ∧ u.host = [])

/-- 93 U1, R46: no operation reads a buffer byte at or above its buffer's length: two states that meet the invariant and differ
only in such bytes (and in the draw of the unwritten ones) run every operation to states that differ only in bytes at or
above the lengths. The draw's number and the memory's form are the model's (assumption 5). -/
def Obligations.BytesBeyondTheLengthsAreNotRead : Prop :=
  ∀ (i : Instr) (s : State) (m : Memory) (d : Nat), s.Inv →
    (∀ j < s.rxlen.val, ({ s with mem := m, bufDraw := d } : State).rxByte j = s.rxByte j) →
    (∀ j < s.txlen.val, ({ s with mem := m, bufDraw := d } : State).txByte j = s.txByte j) →
    ∃ t t', exec i s = .next t ∧ exec i { s with mem := m, bufDraw := d } = .next t' ∧
      t' = { t with mem := t'.mem, bufDraw := d } ∧
      (∀ j < t.rxlen.val, t'.rxByte j = t.rxByte j) ∧ (∀ j < t.txlen.val, t'.txByte j = t.txByte j)

/-! ### The host's statements -/

/-- R96: `loadrx` of at most 512 bytes, played with BUSY = 0, leaves RXLEN = n, the bytes in RXB[0:n], PV = 0, and no other byte
changed. The host's list of moves is the model's choice (assumption 3). -/
def Obligations.LoadRxLoadsTheFrame : Prop :=
  ∀ (s : State) (bs : List Byte) (rest : List HostMove), s.engine = .idle → bs.length ≤ 512 →
    s.host = hostLoadRx bs ++ rest →
    ∃ t : State, Host.Core.run Sys2Proof.core (bs.length + 1) s = .next t ∧
      t = { s with
        rxlen := t.rxlen, pv := .none, mem := t.mem, host := rest, reply := some (.written .okay) } ∧
      t.rxlen.val = bs.length ∧ t.readBytes Config.rxBase bs.length = bs ∧
      (∀ a, ¬ (Config.rxBase ≤ a ∧ a < Config.rxBase + bs.length) → t.byteAt a = s.byteAt a)

/-- R96: `wrbytes` at any index, played with BUSY = 0, replaces exactly the bytes of the buffer at its indices, preserving the other
bytes of each word and every byte outside the buffer (an index past the buffer's end is in no word of it), and changes no length
and no other register but PV. Its moves are a read and a write for each word of the buffer that holds one of the indices, in rising
order. The host's list and its variables are the model's choice (assumptions 3, 7). -/
def Obligations.WrBytesReplacesExactlyThoseBytes : Prop :=
  (∀ (s : State) (sel : Sel) (v index : Nat) (bs : List Byte) (rest : List HostMove), s.engine = .idle →
    s.host = hostWrBytes sel v index bs ++ rest →
    ∃ t : State, Host.Core.run Sys2Proof.core (hostWrBytes sel v index bs).length s = .next t ∧
      t = { s with mem := t.mem, pv := t.pv, vars := t.vars, host := rest, reply := t.reply } ∧
      (∀ j, j < bs.length → index + j < 512 → some (t.selByte sel (index + j)) = bs[j]?) ∧
      (∀ a, ¬ (selBase sel + index ≤ a ∧ a < selBase sel + index + bs.length ∧ a < selBase sel + 512) →
        t.byteAt a = s.byteAt a)) ∧
  (∀ (index : Nat) (bs : List Byte) (w : Nat),
    w ∈ wrbytesWords index bs ↔ w < 128 ∧ ∃ j, j < bs.length ∧ (index + j) / 4 = w) ∧
  (∀ (index : Nat) (bs : List Byte), (wrbytesWords index bs).Pairwise (· < ·))

/-- R95, R25, R81: the host statement `cmd` on an idle block: after some number of steps the operation's whole effect, computed on
the state at acceptance, is there, the wait has seen BUSY = 0, and the program goes on. The host's list and
the turns are the model's choice (assumptions 1, 2, 3), and the polling of `wait` is its reading (DEDUCED, assumption 11). -/
def Obligations.CmdStatementRunsTheOperation : Prop :=
  ∀ (s : State) (i : Instr) (rest : List HostMove), s.engine = .idle → s.host = hostCmd i ++ rest →
    ∃ n r u,
      exec i { s with
        cmd := (encode i).setWidth 16, engine := .running ((encode i).setWidth 16) 1, draws := s.draws + 1
        host := .wait :: rest, reply := r } = .next u ∧
      Host.Core.run Sys2Proof.core n s = .next { u with host := rest, reply := some (.readData u.statusWord .okay) }
end

