-- ==== Sys2Proof/Laws/State.lean ====
section
/-! SUPPORT. What each named update does to each field of State, one simp lemma each. -/

namespace Sys2Proof.Machine

@[simp] theorem State.finish_ie (s : State) (e : Err) (b : Bool) (w : Word) : (s.finish e b w).ie = s.ie := rfl
@[simp] theorem State.finish_mbck (s : State) (e : Err) (b : Bool) (w : Word) : (s.finish e b w).mbck = s.mbck := rfl
@[simp] theorem State.finish_cmd (s : State) (e : Err) (b : Bool) (w : Word) : (s.finish e b w).cmd = s.cmd := rfl
@[simp] theorem State.finish_engine (s : State) (e : Err) (b : Bool) (w : Word) : (s.finish e b w).engine = .idle := rfl
@[simp] theorem State.finish_done (s : State) (e : Err) (b : Bool) (w : Word) : (s.finish e b w).done = true := rfl
@[simp] theorem State.finish_ovr (s : State) (e : Err) (b : Bool) (w : Word) : (s.finish e b w).ovr = s.ovr := rfl
@[simp] theorem State.finish_wbz (s : State) (e : Err) (b : Bool) (w : Word) : (s.finish e b w).wbz = s.wbz := rfl
@[simp] theorem State.finish_rxovf (s : State) (e : Err) (b : Bool) (w : Word) : (s.finish e b w).rxovf = s.rxovf := rfl
@[simp] theorem State.finish_res (s : State) (e : Err) (b : Bool) (w : Word) : (s.finish e b w).res = b := rfl
@[simp] theorem State.finish_err (s : State) (e : Err) (b : Bool) (w : Word) : (s.finish e b w).err = e := rfl
@[simp] theorem State.finish_result (s : State) (e : Err) (b : Bool) (w : Word) : (s.finish e b w).result = w := rfl
@[simp] theorem State.finish_rxlen (s : State) (e : Err) (b : Bool) (w : Word) : (s.finish e b w).rxlen = s.rxlen := rfl
@[simp] theorem State.finish_txlen (s : State) (e : Err) (b : Bool) (w : Word) : (s.finish e b w).txlen = s.txlen := rfl
@[simp] theorem State.finish_mbSlave (s : State) (e : Err) (b : Bool) (w : Word) : (s.finish e b w).mbSlave = s.mbSlave := rfl
@[simp] theorem State.finish_mbFunc (s : State) (e : Err) (b : Bool) (w : Word) : (s.finish e b w).mbFunc = s.mbFunc := rfl
@[simp] theorem State.finish_mbStart (s : State) (e : Err) (b : Bool) (w : Word) : (s.finish e b w).mbStart = s.mbStart := rfl
@[simp] theorem State.finish_mbCount (s : State) (e : Err) (b : Bool) (w : Word) : (s.finish e b w).mbCount = s.mbCount := rfl
@[simp] theorem State.finish_vbDest (s : State) (e : Err) (b : Bool) (w : Word) : (s.finish e b w).vbDest = s.vbDest := rfl
@[simp] theorem State.finish_vbSrc (s : State) (e : Err) (b : Bool) (w : Word) : (s.finish e b w).vbSrc = s.vbSrc := rfl
@[simp] theorem State.finish_parse (s : State) (e : Err) (b : Bool) (w : Word) : (s.finish e b w).parse = s.parse := rfl
@[simp] theorem State.finish_pv (s : State) (e : Err) (b : Bool) (w : Word) : (s.finish e b w).pv = s.pv := rfl
@[simp] theorem State.finish_scIn (s : State) (e : Err) (b : Bool) (w : Word) : (s.finish e b w).scIn = s.scIn := rfl
@[simp] theorem State.finish_scClass (s : State) (e : Err) (b : Bool) (w : Word) : (s.finish e b w).scClass = s.scClass := rfl
@[simp] theorem State.finish_decInfo (s : State) (e : Err) (b : Bool) (w : Word) : (s.finish e b w).decInfo = s.decInfo := rfl
@[simp] theorem State.finish_slots (s : State) (e : Err) (b : Bool) (w : Word) : (s.finish e b w).slots = s.slots := rfl
@[simp] theorem State.finish_fdesc (s : State) (e : Err) (b : Bool) (w : Word) : (s.finish e b w).fdesc = s.fdesc := rfl
@[simp] theorem State.finish_cmdt (s : State) (e : Err) (b : Bool) (w : Word) : (s.finish e b w).cmdt = s.cmdt := rfl
@[simp] theorem State.finish_mem (s : State) (e : Err) (b : Bool) (w : Word) : (s.finish e b w).mem = s.mem := rfl
@[simp] theorem State.finish_params (s : State) (e : Err) (b : Bool) (w : Word) : (s.finish e b w).params = s.params := rfl
@[simp] theorem State.finish_bufDraw (s : State) (e : Err) (b : Bool) (w : Word) : (s.finish e b w).bufDraw = s.bufDraw := rfl
@[simp] theorem State.finish_draws (s : State) (e : Err) (b : Bool) (w : Word) : (s.finish e b w).draws = s.draws := rfl
@[simp] theorem State.finish_vars (s : State) (e : Err) (b : Bool) (w : Word) : (s.finish e b w).vars = s.vars := rfl
@[simp] theorem State.finish_host (s : State) (e : Err) (b : Bool) (w : Word) : (s.finish e b w).host = s.host := rfl
@[simp] theorem State.finish_reply (s : State) (e : Err) (b : Bool) (w : Word) : (s.finish e b w).reply = s.reply := rfl

@[simp] theorem State.raise_ie (s : State) (e : Err) : (s.raise e).ie = s.ie := rfl
@[simp] theorem State.raise_mbck (s : State) (e : Err) : (s.raise e).mbck = s.mbck := rfl
@[simp] theorem State.raise_cmd (s : State) (e : Err) : (s.raise e).cmd = s.cmd := rfl
@[simp] theorem State.raise_engine (s : State) (e : Err) : (s.raise e).engine = .idle := rfl
@[simp] theorem State.raise_done (s : State) (e : Err) : (s.raise e).done = true := rfl
@[simp] theorem State.raise_ovr (s : State) (e : Err) : (s.raise e).ovr = s.ovr := rfl
@[simp] theorem State.raise_wbz (s : State) (e : Err) : (s.raise e).wbz = s.wbz := rfl
@[simp] theorem State.raise_rxovf (s : State) (e : Err) : (s.raise e).rxovf = s.rxovf := rfl
@[simp] theorem State.raise_res (s : State) (e : Err) : (s.raise e).res = false := rfl
@[simp] theorem State.raise_err (s : State) (e : Err) : (s.raise e).err = e := rfl
@[simp] theorem State.raise_result (s : State) (e : Err) : (s.raise e).result = 0#32 := rfl
@[simp] theorem State.raise_rxlen (s : State) (e : Err) : (s.raise e).rxlen = s.rxlen := rfl
@[simp] theorem State.raise_txlen (s : State) (e : Err) : (s.raise e).txlen = s.txlen := rfl
@[simp] theorem State.raise_mbSlave (s : State) (e : Err) : (s.raise e).mbSlave = s.mbSlave := rfl
@[simp] theorem State.raise_mbFunc (s : State) (e : Err) : (s.raise e).mbFunc = s.mbFunc := rfl
@[simp] theorem State.raise_mbStart (s : State) (e : Err) : (s.raise e).mbStart = s.mbStart := rfl
@[simp] theorem State.raise_mbCount (s : State) (e : Err) : (s.raise e).mbCount = s.mbCount := rfl
@[simp] theorem State.raise_vbDest (s : State) (e : Err) : (s.raise e).vbDest = s.vbDest := rfl
@[simp] theorem State.raise_vbSrc (s : State) (e : Err) : (s.raise e).vbSrc = s.vbSrc := rfl
@[simp] theorem State.raise_parse (s : State) (e : Err) : (s.raise e).parse = s.parse := rfl
@[simp] theorem State.raise_pv (s : State) (e : Err) : (s.raise e).pv = s.pv := rfl
@[simp] theorem State.raise_scIn (s : State) (e : Err) : (s.raise e).scIn = s.scIn := rfl
@[simp] theorem State.raise_scClass (s : State) (e : Err) : (s.raise e).scClass = s.scClass := rfl
@[simp] theorem State.raise_decInfo (s : State) (e : Err) : (s.raise e).decInfo = s.decInfo := rfl
@[simp] theorem State.raise_slots (s : State) (e : Err) : (s.raise e).slots = s.slots := rfl
@[simp] theorem State.raise_fdesc (s : State) (e : Err) : (s.raise e).fdesc = s.fdesc := rfl
@[simp] theorem State.raise_cmdt (s : State) (e : Err) : (s.raise e).cmdt = s.cmdt := rfl
@[simp] theorem State.raise_mem (s : State) (e : Err) : (s.raise e).mem = s.mem := rfl
@[simp] theorem State.raise_params (s : State) (e : Err) : (s.raise e).params = s.params := rfl
@[simp] theorem State.raise_bufDraw (s : State) (e : Err) : (s.raise e).bufDraw = s.bufDraw := rfl
@[simp] theorem State.raise_draws (s : State) (e : Err) : (s.raise e).draws = s.draws := rfl
@[simp] theorem State.raise_vars (s : State) (e : Err) : (s.raise e).vars = s.vars := rfl
@[simp] theorem State.raise_host (s : State) (e : Err) : (s.raise e).host = s.host := rfl
@[simp] theorem State.raise_reply (s : State) (e : Err) : (s.raise e).reply = s.reply := rfl

@[simp] theorem State.writeBytes_ie (s : State) (a : Nat) (bs : List Byte) : (s.writeBytes a bs).ie = s.ie := rfl
@[simp] theorem State.writeBytes_mbck (s : State) (a : Nat) (bs : List Byte) : (s.writeBytes a bs).mbck = s.mbck := rfl
@[simp] theorem State.writeBytes_cmd (s : State) (a : Nat) (bs : List Byte) : (s.writeBytes a bs).cmd = s.cmd := rfl
@[simp] theorem State.writeBytes_engine (s : State) (a : Nat) (bs : List Byte) : (s.writeBytes a bs).engine = s.engine := rfl
@[simp] theorem State.writeBytes_done (s : State) (a : Nat) (bs : List Byte) : (s.writeBytes a bs).done = s.done := rfl
@[simp] theorem State.writeBytes_ovr (s : State) (a : Nat) (bs : List Byte) : (s.writeBytes a bs).ovr = s.ovr := rfl
@[simp] theorem State.writeBytes_wbz (s : State) (a : Nat) (bs : List Byte) : (s.writeBytes a bs).wbz = s.wbz := rfl
@[simp] theorem State.writeBytes_rxovf (s : State) (a : Nat) (bs : List Byte) : (s.writeBytes a bs).rxovf = s.rxovf := rfl
@[simp] theorem State.writeBytes_res (s : State) (a : Nat) (bs : List Byte) : (s.writeBytes a bs).res = s.res := rfl
@[simp] theorem State.writeBytes_err (s : State) (a : Nat) (bs : List Byte) : (s.writeBytes a bs).err = s.err := rfl
@[simp] theorem State.writeBytes_result (s : State) (a : Nat) (bs : List Byte) : (s.writeBytes a bs).result = s.result := rfl
@[simp] theorem State.writeBytes_rxlen (s : State) (a : Nat) (bs : List Byte) : (s.writeBytes a bs).rxlen = s.rxlen := rfl
@[simp] theorem State.writeBytes_txlen (s : State) (a : Nat) (bs : List Byte) : (s.writeBytes a bs).txlen = s.txlen := rfl
@[simp] theorem State.writeBytes_mbSlave (s : State) (a : Nat) (bs : List Byte) : (s.writeBytes a bs).mbSlave = s.mbSlave := rfl
@[simp] theorem State.writeBytes_mbFunc (s : State) (a : Nat) (bs : List Byte) : (s.writeBytes a bs).mbFunc = s.mbFunc := rfl
@[simp] theorem State.writeBytes_mbStart (s : State) (a : Nat) (bs : List Byte) : (s.writeBytes a bs).mbStart = s.mbStart := rfl
@[simp] theorem State.writeBytes_mbCount (s : State) (a : Nat) (bs : List Byte) : (s.writeBytes a bs).mbCount = s.mbCount := rfl
@[simp] theorem State.writeBytes_vbDest (s : State) (a : Nat) (bs : List Byte) : (s.writeBytes a bs).vbDest = s.vbDest := rfl
@[simp] theorem State.writeBytes_vbSrc (s : State) (a : Nat) (bs : List Byte) : (s.writeBytes a bs).vbSrc = s.vbSrc := rfl
@[simp] theorem State.writeBytes_parse (s : State) (a : Nat) (bs : List Byte) : (s.writeBytes a bs).parse = s.parse := rfl
@[simp] theorem State.writeBytes_pv (s : State) (a : Nat) (bs : List Byte) : (s.writeBytes a bs).pv = s.pv := rfl
@[simp] theorem State.writeBytes_scIn (s : State) (a : Nat) (bs : List Byte) : (s.writeBytes a bs).scIn = s.scIn := rfl
@[simp] theorem State.writeBytes_scClass (s : State) (a : Nat) (bs : List Byte) : (s.writeBytes a bs).scClass = s.scClass := rfl
@[simp] theorem State.writeBytes_decInfo (s : State) (a : Nat) (bs : List Byte) : (s.writeBytes a bs).decInfo = s.decInfo := rfl
@[simp] theorem State.writeBytes_slots (s : State) (a : Nat) (bs : List Byte) : (s.writeBytes a bs).slots = s.slots := rfl
@[simp] theorem State.writeBytes_fdesc (s : State) (a : Nat) (bs : List Byte) : (s.writeBytes a bs).fdesc = s.fdesc := rfl
@[simp] theorem State.writeBytes_cmdt (s : State) (a : Nat) (bs : List Byte) : (s.writeBytes a bs).cmdt = s.cmdt := rfl
@[simp] theorem State.writeBytes_mem (s : State) (a : Nat) (bs : List Byte) : (s.writeBytes a bs).mem = writeCells s.mem a bs := rfl
@[simp] theorem State.writeBytes_params (s : State) (a : Nat) (bs : List Byte) : (s.writeBytes a bs).params = s.params := rfl
@[simp] theorem State.writeBytes_bufDraw (s : State) (a : Nat) (bs : List Byte) : (s.writeBytes a bs).bufDraw = s.bufDraw := rfl
@[simp] theorem State.writeBytes_draws (s : State) (a : Nat) (bs : List Byte) : (s.writeBytes a bs).draws = s.draws := rfl
@[simp] theorem State.writeBytes_vars (s : State) (a : Nat) (bs : List Byte) : (s.writeBytes a bs).vars = s.vars := rfl
@[simp] theorem State.writeBytes_host (s : State) (a : Nat) (bs : List Byte) : (s.writeBytes a bs).host = s.host := rfl
@[simp] theorem State.writeBytes_reply (s : State) (a : Nat) (bs : List Byte) : (s.writeBytes a bs).reply = s.reply := rfl

@[simp] theorem State.acknowledge_ie (s : State) : (s.acknowledge).ie = s.ie := rfl
@[simp] theorem State.acknowledge_mbck (s : State) : (s.acknowledge).mbck = s.mbck := rfl
@[simp] theorem State.acknowledge_cmd (s : State) : (s.acknowledge).cmd = s.cmd := rfl
@[simp] theorem State.acknowledge_engine (s : State) : (s.acknowledge).engine = s.engine := rfl
@[simp] theorem State.acknowledge_done (s : State) : (s.acknowledge).done = false := rfl
@[simp] theorem State.acknowledge_ovr (s : State) : (s.acknowledge).ovr = s.ovr := rfl
@[simp] theorem State.acknowledge_wbz (s : State) : (s.acknowledge).wbz = s.wbz := rfl
@[simp] theorem State.acknowledge_rxovf (s : State) : (s.acknowledge).rxovf = s.rxovf := rfl
@[simp] theorem State.acknowledge_res (s : State) : (s.acknowledge).res = s.res := rfl
@[simp] theorem State.acknowledge_err (s : State) : (s.acknowledge).err = s.err := rfl
@[simp] theorem State.acknowledge_result (s : State) : (s.acknowledge).result = s.result := rfl
@[simp] theorem State.acknowledge_rxlen (s : State) : (s.acknowledge).rxlen = s.rxlen := rfl
@[simp] theorem State.acknowledge_txlen (s : State) : (s.acknowledge).txlen = s.txlen := rfl
@[simp] theorem State.acknowledge_mbSlave (s : State) : (s.acknowledge).mbSlave = s.mbSlave := rfl
@[simp] theorem State.acknowledge_mbFunc (s : State) : (s.acknowledge).mbFunc = s.mbFunc := rfl
@[simp] theorem State.acknowledge_mbStart (s : State) : (s.acknowledge).mbStart = s.mbStart := rfl
@[simp] theorem State.acknowledge_mbCount (s : State) : (s.acknowledge).mbCount = s.mbCount := rfl
@[simp] theorem State.acknowledge_vbDest (s : State) : (s.acknowledge).vbDest = s.vbDest := rfl
@[simp] theorem State.acknowledge_vbSrc (s : State) : (s.acknowledge).vbSrc = s.vbSrc := rfl
@[simp] theorem State.acknowledge_parse (s : State) : (s.acknowledge).parse = s.parse := rfl
@[simp] theorem State.acknowledge_pv (s : State) : (s.acknowledge).pv = s.pv := rfl
@[simp] theorem State.acknowledge_scIn (s : State) : (s.acknowledge).scIn = s.scIn := rfl
@[simp] theorem State.acknowledge_scClass (s : State) : (s.acknowledge).scClass = s.scClass := rfl
@[simp] theorem State.acknowledge_decInfo (s : State) : (s.acknowledge).decInfo = s.decInfo := rfl
@[simp] theorem State.acknowledge_slots (s : State) : (s.acknowledge).slots = s.slots := rfl
@[simp] theorem State.acknowledge_fdesc (s : State) : (s.acknowledge).fdesc = s.fdesc := rfl
@[simp] theorem State.acknowledge_cmdt (s : State) : (s.acknowledge).cmdt = s.cmdt := rfl
@[simp] theorem State.acknowledge_mem (s : State) : (s.acknowledge).mem = s.mem := rfl
@[simp] theorem State.acknowledge_params (s : State) : (s.acknowledge).params = s.params := rfl
@[simp] theorem State.acknowledge_bufDraw (s : State) : (s.acknowledge).bufDraw = s.bufDraw := rfl
@[simp] theorem State.acknowledge_draws (s : State) : (s.acknowledge).draws = s.draws := rfl
@[simp] theorem State.acknowledge_vars (s : State) : (s.acknowledge).vars = s.vars := rfl
@[simp] theorem State.acknowledge_host (s : State) : (s.acknowledge).host = s.host := rfl
@[simp] theorem State.acknowledge_reply (s : State) : (s.acknowledge).reply = s.reply := rfl

@[simp] theorem State.clearPv_ie (s : State) : (s.clearPv).ie = s.ie := rfl
@[simp] theorem State.clearPv_mbck (s : State) : (s.clearPv).mbck = s.mbck := rfl
@[simp] theorem State.clearPv_cmd (s : State) : (s.clearPv).cmd = s.cmd := rfl
@[simp] theorem State.clearPv_engine (s : State) : (s.clearPv).engine = s.engine := rfl
@[simp] theorem State.clearPv_done (s : State) : (s.clearPv).done = s.done := rfl
@[simp] theorem State.clearPv_ovr (s : State) : (s.clearPv).ovr = s.ovr := rfl
@[simp] theorem State.clearPv_wbz (s : State) : (s.clearPv).wbz = s.wbz := rfl
@[simp] theorem State.clearPv_rxovf (s : State) : (s.clearPv).rxovf = s.rxovf := rfl
@[simp] theorem State.clearPv_res (s : State) : (s.clearPv).res = s.res := rfl
@[simp] theorem State.clearPv_err (s : State) : (s.clearPv).err = s.err := rfl
@[simp] theorem State.clearPv_result (s : State) : (s.clearPv).result = s.result := rfl
@[simp] theorem State.clearPv_rxlen (s : State) : (s.clearPv).rxlen = s.rxlen := rfl
@[simp] theorem State.clearPv_txlen (s : State) : (s.clearPv).txlen = s.txlen := rfl
@[simp] theorem State.clearPv_mbSlave (s : State) : (s.clearPv).mbSlave = s.mbSlave := rfl
@[simp] theorem State.clearPv_mbFunc (s : State) : (s.clearPv).mbFunc = s.mbFunc := rfl
@[simp] theorem State.clearPv_mbStart (s : State) : (s.clearPv).mbStart = s.mbStart := rfl
@[simp] theorem State.clearPv_mbCount (s : State) : (s.clearPv).mbCount = s.mbCount := rfl
@[simp] theorem State.clearPv_vbDest (s : State) : (s.clearPv).vbDest = s.vbDest := rfl
@[simp] theorem State.clearPv_vbSrc (s : State) : (s.clearPv).vbSrc = s.vbSrc := rfl
@[simp] theorem State.clearPv_parse (s : State) : (s.clearPv).parse = s.parse := rfl
@[simp] theorem State.clearPv_pv (s : State) : (s.clearPv).pv = .none := rfl
@[simp] theorem State.clearPv_scIn (s : State) : (s.clearPv).scIn = s.scIn := rfl
@[simp] theorem State.clearPv_scClass (s : State) : (s.clearPv).scClass = s.scClass := rfl
@[simp] theorem State.clearPv_decInfo (s : State) : (s.clearPv).decInfo = s.decInfo := rfl
@[simp] theorem State.clearPv_slots (s : State) : (s.clearPv).slots = s.slots := rfl
@[simp] theorem State.clearPv_fdesc (s : State) : (s.clearPv).fdesc = s.fdesc := rfl
@[simp] theorem State.clearPv_cmdt (s : State) : (s.clearPv).cmdt = s.cmdt := rfl
@[simp] theorem State.clearPv_mem (s : State) : (s.clearPv).mem = s.mem := rfl
@[simp] theorem State.clearPv_params (s : State) : (s.clearPv).params = s.params := rfl
@[simp] theorem State.clearPv_bufDraw (s : State) : (s.clearPv).bufDraw = s.bufDraw := rfl
@[simp] theorem State.clearPv_draws (s : State) : (s.clearPv).draws = s.draws := rfl
@[simp] theorem State.clearPv_vars (s : State) : (s.clearPv).vars = s.vars := rfl
@[simp] theorem State.clearPv_host (s : State) : (s.clearPv).host = s.host := rfl
@[simp] theorem State.clearPv_reply (s : State) : (s.clearPv).reply = s.reply := rfl

@[simp] theorem State.setParse_ie (s : State) (p : ParseRegs) (v : Pv) : (s.setParse p v).ie = s.ie := rfl
@[simp] theorem State.setParse_mbck (s : State) (p : ParseRegs) (v : Pv) : (s.setParse p v).mbck = s.mbck := rfl
@[simp] theorem State.setParse_cmd (s : State) (p : ParseRegs) (v : Pv) : (s.setParse p v).cmd = s.cmd := rfl
@[simp] theorem State.setParse_engine (s : State) (p : ParseRegs) (v : Pv) : (s.setParse p v).engine = s.engine := rfl
@[simp] theorem State.setParse_done (s : State) (p : ParseRegs) (v : Pv) : (s.setParse p v).done = s.done := rfl
@[simp] theorem State.setParse_ovr (s : State) (p : ParseRegs) (v : Pv) : (s.setParse p v).ovr = s.ovr := rfl
@[simp] theorem State.setParse_wbz (s : State) (p : ParseRegs) (v : Pv) : (s.setParse p v).wbz = s.wbz := rfl
@[simp] theorem State.setParse_rxovf (s : State) (p : ParseRegs) (v : Pv) : (s.setParse p v).rxovf = s.rxovf := rfl
@[simp] theorem State.setParse_res (s : State) (p : ParseRegs) (v : Pv) : (s.setParse p v).res = s.res := rfl
@[simp] theorem State.setParse_err (s : State) (p : ParseRegs) (v : Pv) : (s.setParse p v).err = s.err := rfl
@[simp] theorem State.setParse_result (s : State) (p : ParseRegs) (v : Pv) : (s.setParse p v).result = s.result := rfl
@[simp] theorem State.setParse_rxlen (s : State) (p : ParseRegs) (v : Pv) : (s.setParse p v).rxlen = s.rxlen := rfl
@[simp] theorem State.setParse_txlen (s : State) (p : ParseRegs) (v : Pv) : (s.setParse p v).txlen = s.txlen := rfl
@[simp] theorem State.setParse_mbSlave (s : State) (p : ParseRegs) (v : Pv) : (s.setParse p v).mbSlave = s.mbSlave := rfl
@[simp] theorem State.setParse_mbFunc (s : State) (p : ParseRegs) (v : Pv) : (s.setParse p v).mbFunc = s.mbFunc := rfl
@[simp] theorem State.setParse_mbStart (s : State) (p : ParseRegs) (v : Pv) : (s.setParse p v).mbStart = s.mbStart := rfl
@[simp] theorem State.setParse_mbCount (s : State) (p : ParseRegs) (v : Pv) : (s.setParse p v).mbCount = s.mbCount := rfl
@[simp] theorem State.setParse_vbDest (s : State) (p : ParseRegs) (v : Pv) : (s.setParse p v).vbDest = s.vbDest := rfl
@[simp] theorem State.setParse_vbSrc (s : State) (p : ParseRegs) (v : Pv) : (s.setParse p v).vbSrc = s.vbSrc := rfl
@[simp] theorem State.setParse_parse (s : State) (p : ParseRegs) (v : Pv) : (s.setParse p v).parse = p := rfl
@[simp] theorem State.setParse_pv (s : State) (p : ParseRegs) (v : Pv) : (s.setParse p v).pv = v := rfl
@[simp] theorem State.setParse_scIn (s : State) (p : ParseRegs) (v : Pv) : (s.setParse p v).scIn = s.scIn := rfl
@[simp] theorem State.setParse_scClass (s : State) (p : ParseRegs) (v : Pv) : (s.setParse p v).scClass = s.scClass := rfl
@[simp] theorem State.setParse_decInfo (s : State) (p : ParseRegs) (v : Pv) : (s.setParse p v).decInfo = s.decInfo := rfl
@[simp] theorem State.setParse_slots (s : State) (p : ParseRegs) (v : Pv) : (s.setParse p v).slots = s.slots := rfl
@[simp] theorem State.setParse_fdesc (s : State) (p : ParseRegs) (v : Pv) : (s.setParse p v).fdesc = s.fdesc := rfl
@[simp] theorem State.setParse_cmdt (s : State) (p : ParseRegs) (v : Pv) : (s.setParse p v).cmdt = s.cmdt := rfl
@[simp] theorem State.setParse_mem (s : State) (p : ParseRegs) (v : Pv) : (s.setParse p v).mem = s.mem := rfl
@[simp] theorem State.setParse_params (s : State) (p : ParseRegs) (v : Pv) : (s.setParse p v).params = s.params := rfl
@[simp] theorem State.setParse_bufDraw (s : State) (p : ParseRegs) (v : Pv) : (s.setParse p v).bufDraw = s.bufDraw := rfl
@[simp] theorem State.setParse_draws (s : State) (p : ParseRegs) (v : Pv) : (s.setParse p v).draws = s.draws := rfl
@[simp] theorem State.setParse_vars (s : State) (p : ParseRegs) (v : Pv) : (s.setParse p v).vars = s.vars := rfl
@[simp] theorem State.setParse_host (s : State) (p : ParseRegs) (v : Pv) : (s.setParse p v).host = s.host := rfl
@[simp] theorem State.setParse_reply (s : State) (p : ParseRegs) (v : Pv) : (s.setParse p v).reply = s.reply := rfl

@[simp] theorem State.failParse_ie (s : State) (e : Err) (w : Word) : (s.failParse e w).ie = s.ie := rfl
@[simp] theorem State.failParse_mbck (s : State) (e : Err) (w : Word) : (s.failParse e w).mbck = s.mbck := rfl
@[simp] theorem State.failParse_cmd (s : State) (e : Err) (w : Word) : (s.failParse e w).cmd = s.cmd := rfl
@[simp] theorem State.failParse_engine (s : State) (e : Err) (w : Word) : (s.failParse e w).engine = .idle := rfl
@[simp] theorem State.failParse_done (s : State) (e : Err) (w : Word) : (s.failParse e w).done = true := rfl
@[simp] theorem State.failParse_ovr (s : State) (e : Err) (w : Word) : (s.failParse e w).ovr = s.ovr := rfl
@[simp] theorem State.failParse_wbz (s : State) (e : Err) (w : Word) : (s.failParse e w).wbz = s.wbz := rfl
@[simp] theorem State.failParse_rxovf (s : State) (e : Err) (w : Word) : (s.failParse e w).rxovf = s.rxovf := rfl
@[simp] theorem State.failParse_res (s : State) (e : Err) (w : Word) : (s.failParse e w).res = false := rfl
@[simp] theorem State.failParse_err (s : State) (e : Err) (w : Word) : (s.failParse e w).err = e := rfl
@[simp] theorem State.failParse_result (s : State) (e : Err) (w : Word) : (s.failParse e w).result = w := rfl
@[simp] theorem State.failParse_rxlen (s : State) (e : Err) (w : Word) : (s.failParse e w).rxlen = s.rxlen := rfl
@[simp] theorem State.failParse_txlen (s : State) (e : Err) (w : Word) : (s.failParse e w).txlen = s.txlen := rfl
@[simp] theorem State.failParse_mbSlave (s : State) (e : Err) (w : Word) : (s.failParse e w).mbSlave = s.mbSlave := rfl
@[simp] theorem State.failParse_mbFunc (s : State) (e : Err) (w : Word) : (s.failParse e w).mbFunc = s.mbFunc := rfl
@[simp] theorem State.failParse_mbStart (s : State) (e : Err) (w : Word) : (s.failParse e w).mbStart = s.mbStart := rfl
@[simp] theorem State.failParse_mbCount (s : State) (e : Err) (w : Word) : (s.failParse e w).mbCount = s.mbCount := rfl
@[simp] theorem State.failParse_vbDest (s : State) (e : Err) (w : Word) : (s.failParse e w).vbDest = s.vbDest := rfl
@[simp] theorem State.failParse_vbSrc (s : State) (e : Err) (w : Word) : (s.failParse e w).vbSrc = s.vbSrc := rfl
@[simp] theorem State.failParse_parse (s : State) (e : Err) (w : Word) : (s.failParse e w).parse = ParseRegs.zero := rfl
@[simp] theorem State.failParse_pv (s : State) (e : Err) (w : Word) : (s.failParse e w).pv = .none := rfl
@[simp] theorem State.failParse_scIn (s : State) (e : Err) (w : Word) : (s.failParse e w).scIn = s.scIn := rfl
@[simp] theorem State.failParse_scClass (s : State) (e : Err) (w : Word) : (s.failParse e w).scClass = s.scClass := rfl
@[simp] theorem State.failParse_decInfo (s : State) (e : Err) (w : Word) : (s.failParse e w).decInfo = s.decInfo := rfl
@[simp] theorem State.failParse_slots (s : State) (e : Err) (w : Word) : (s.failParse e w).slots = s.slots := rfl
@[simp] theorem State.failParse_fdesc (s : State) (e : Err) (w : Word) : (s.failParse e w).fdesc = s.fdesc := rfl
@[simp] theorem State.failParse_cmdt (s : State) (e : Err) (w : Word) : (s.failParse e w).cmdt = s.cmdt := rfl
@[simp] theorem State.failParse_mem (s : State) (e : Err) (w : Word) : (s.failParse e w).mem = s.mem := rfl
@[simp] theorem State.failParse_params (s : State) (e : Err) (w : Word) : (s.failParse e w).params = s.params := rfl
@[simp] theorem State.failParse_bufDraw (s : State) (e : Err) (w : Word) : (s.failParse e w).bufDraw = s.bufDraw := rfl
@[simp] theorem State.failParse_draws (s : State) (e : Err) (w : Word) : (s.failParse e w).draws = s.draws := rfl
@[simp] theorem State.failParse_vars (s : State) (e : Err) (w : Word) : (s.failParse e w).vars = s.vars := rfl
@[simp] theorem State.failParse_host (s : State) (e : Err) (w : Word) : (s.failParse e w).host = s.host := rfl
@[simp] theorem State.failParse_reply (s : State) (e : Err) (w : Word) : (s.failParse e w).reply = s.reply := rfl

@[simp] theorem State.accept_ie (s : State) (w : Word) : (s.accept w).ie = s.ie := rfl
@[simp] theorem State.accept_mbck (s : State) (w : Word) : (s.accept w).mbck = s.mbck := rfl
@[simp] theorem State.accept_cmd (s : State) (w : Word) : (s.accept w).cmd = w.setWidth 16 := rfl
@[simp] theorem State.accept_engine (s : State) (w : Word) : (s.accept w).engine = .running (w.setWidth 16) (Config.opLatency s.draws (w.setWidth 16)) := rfl
@[simp] theorem State.accept_done (s : State) (w : Word) : (s.accept w).done = s.done := rfl
@[simp] theorem State.accept_ovr (s : State) (w : Word) : (s.accept w).ovr = s.ovr := rfl
@[simp] theorem State.accept_wbz (s : State) (w : Word) : (s.accept w).wbz = s.wbz := rfl
@[simp] theorem State.accept_rxovf (s : State) (w : Word) : (s.accept w).rxovf = s.rxovf := rfl
@[simp] theorem State.accept_res (s : State) (w : Word) : (s.accept w).res = s.res := rfl
@[simp] theorem State.accept_err (s : State) (w : Word) : (s.accept w).err = s.err := rfl
@[simp] theorem State.accept_result (s : State) (w : Word) : (s.accept w).result = s.result := rfl
@[simp] theorem State.accept_rxlen (s : State) (w : Word) : (s.accept w).rxlen = s.rxlen := rfl
@[simp] theorem State.accept_txlen (s : State) (w : Word) : (s.accept w).txlen = s.txlen := rfl
@[simp] theorem State.accept_mbSlave (s : State) (w : Word) : (s.accept w).mbSlave = s.mbSlave := rfl
@[simp] theorem State.accept_mbFunc (s : State) (w : Word) : (s.accept w).mbFunc = s.mbFunc := rfl
@[simp] theorem State.accept_mbStart (s : State) (w : Word) : (s.accept w).mbStart = s.mbStart := rfl
@[simp] theorem State.accept_mbCount (s : State) (w : Word) : (s.accept w).mbCount = s.mbCount := rfl
@[simp] theorem State.accept_vbDest (s : State) (w : Word) : (s.accept w).vbDest = s.vbDest := rfl
@[simp] theorem State.accept_vbSrc (s : State) (w : Word) : (s.accept w).vbSrc = s.vbSrc := rfl
@[simp] theorem State.accept_parse (s : State) (w : Word) : (s.accept w).parse = s.parse := rfl
@[simp] theorem State.accept_pv (s : State) (w : Word) : (s.accept w).pv = s.pv := rfl
@[simp] theorem State.accept_scIn (s : State) (w : Word) : (s.accept w).scIn = s.scIn := rfl
@[simp] theorem State.accept_scClass (s : State) (w : Word) : (s.accept w).scClass = s.scClass := rfl
@[simp] theorem State.accept_decInfo (s : State) (w : Word) : (s.accept w).decInfo = s.decInfo := rfl
@[simp] theorem State.accept_slots (s : State) (w : Word) : (s.accept w).slots = s.slots := rfl
@[simp] theorem State.accept_fdesc (s : State) (w : Word) : (s.accept w).fdesc = s.fdesc := rfl
@[simp] theorem State.accept_cmdt (s : State) (w : Word) : (s.accept w).cmdt = s.cmdt := rfl
@[simp] theorem State.accept_mem (s : State) (w : Word) : (s.accept w).mem = s.mem := rfl
@[simp] theorem State.accept_params (s : State) (w : Word) : (s.accept w).params = s.params := rfl
@[simp] theorem State.accept_bufDraw (s : State) (w : Word) : (s.accept w).bufDraw = s.bufDraw := rfl
@[simp] theorem State.accept_draws (s : State) (w : Word) : (s.accept w).draws = s.draws + 1 := rfl
@[simp] theorem State.accept_vars (s : State) (w : Word) : (s.accept w).vars = s.vars := rfl
@[simp] theorem State.accept_host (s : State) (w : Word) : (s.accept w).host = s.host := rfl
@[simp] theorem State.accept_reply (s : State) (w : Word) : (s.accept w).reply = s.reply := rfl

@[simp] theorem State.putFrame_ie (s : State) (bs : List Byte) : (s.putFrame bs).ie = s.ie := rfl
@[simp] theorem State.putFrame_mbck (s : State) (bs : List Byte) : (s.putFrame bs).mbck = s.mbck := rfl
@[simp] theorem State.putFrame_cmd (s : State) (bs : List Byte) : (s.putFrame bs).cmd = s.cmd := rfl
@[simp] theorem State.putFrame_engine (s : State) (bs : List Byte) : (s.putFrame bs).engine = s.engine := rfl
@[simp] theorem State.putFrame_done (s : State) (bs : List Byte) : (s.putFrame bs).done = s.done := rfl
@[simp] theorem State.putFrame_ovr (s : State) (bs : List Byte) : (s.putFrame bs).ovr = s.ovr := rfl
@[simp] theorem State.putFrame_wbz (s : State) (bs : List Byte) : (s.putFrame bs).wbz = s.wbz := rfl
@[simp] theorem State.putFrame_rxovf (s : State) (bs : List Byte) : (s.putFrame bs).rxovf = s.rxovf := rfl
@[simp] theorem State.putFrame_res (s : State) (bs : List Byte) : (s.putFrame bs).res = s.res := rfl
@[simp] theorem State.putFrame_err (s : State) (bs : List Byte) : (s.putFrame bs).err = s.err := rfl
@[simp] theorem State.putFrame_result (s : State) (bs : List Byte) : (s.putFrame bs).result = s.result := rfl
@[simp] theorem State.putFrame_rxlen (s : State) (bs : List Byte) : (s.putFrame bs).rxlen = s.rxlen := rfl
@[simp] theorem State.putFrame_txlen (s : State) (bs : List Byte) : (s.putFrame bs).txlen = clampLen bs.length := rfl
@[simp] theorem State.putFrame_mbSlave (s : State) (bs : List Byte) : (s.putFrame bs).mbSlave = s.mbSlave := rfl
@[simp] theorem State.putFrame_mbFunc (s : State) (bs : List Byte) : (s.putFrame bs).mbFunc = s.mbFunc := rfl
@[simp] theorem State.putFrame_mbStart (s : State) (bs : List Byte) : (s.putFrame bs).mbStart = s.mbStart := rfl
@[simp] theorem State.putFrame_mbCount (s : State) (bs : List Byte) : (s.putFrame bs).mbCount = s.mbCount := rfl
@[simp] theorem State.putFrame_vbDest (s : State) (bs : List Byte) : (s.putFrame bs).vbDest = s.vbDest := rfl
@[simp] theorem State.putFrame_vbSrc (s : State) (bs : List Byte) : (s.putFrame bs).vbSrc = s.vbSrc := rfl
@[simp] theorem State.putFrame_parse (s : State) (bs : List Byte) : (s.putFrame bs).parse = s.parse := rfl
@[simp] theorem State.putFrame_pv (s : State) (bs : List Byte) : (s.putFrame bs).pv = s.pv := rfl
@[simp] theorem State.putFrame_scIn (s : State) (bs : List Byte) : (s.putFrame bs).scIn = s.scIn := rfl
@[simp] theorem State.putFrame_scClass (s : State) (bs : List Byte) : (s.putFrame bs).scClass = s.scClass := rfl
@[simp] theorem State.putFrame_decInfo (s : State) (bs : List Byte) : (s.putFrame bs).decInfo = s.decInfo := rfl
@[simp] theorem State.putFrame_slots (s : State) (bs : List Byte) : (s.putFrame bs).slots = s.slots := rfl
@[simp] theorem State.putFrame_fdesc (s : State) (bs : List Byte) : (s.putFrame bs).fdesc = s.fdesc := rfl
@[simp] theorem State.putFrame_cmdt (s : State) (bs : List Byte) : (s.putFrame bs).cmdt = s.cmdt := rfl
@[simp] theorem State.putFrame_mem (s : State) (bs : List Byte) : (s.putFrame bs).mem = writeCells s.mem Config.txBase bs := rfl
@[simp] theorem State.putFrame_params (s : State) (bs : List Byte) : (s.putFrame bs).params = s.params := rfl
@[simp] theorem State.putFrame_bufDraw (s : State) (bs : List Byte) : (s.putFrame bs).bufDraw = s.bufDraw := rfl
@[simp] theorem State.putFrame_draws (s : State) (bs : List Byte) : (s.putFrame bs).draws = s.draws := rfl
@[simp] theorem State.putFrame_vars (s : State) (bs : List Byte) : (s.putFrame bs).vars = s.vars := rfl
@[simp] theorem State.putFrame_host (s : State) (bs : List Byte) : (s.putFrame bs).host = s.host := rfl
@[simp] theorem State.putFrame_reply (s : State) (bs : List Byte) : (s.putFrame bs).reply = s.reply := rfl

@[simp] theorem State.setClass_ie (s : State) (c : ClassCode) : (s.setClass c).ie = s.ie := rfl
@[simp] theorem State.setClass_mbck (s : State) (c : ClassCode) : (s.setClass c).mbck = s.mbck := rfl
@[simp] theorem State.setClass_cmd (s : State) (c : ClassCode) : (s.setClass c).cmd = s.cmd := rfl
@[simp] theorem State.setClass_engine (s : State) (c : ClassCode) : (s.setClass c).engine = .idle := rfl
@[simp] theorem State.setClass_done (s : State) (c : ClassCode) : (s.setClass c).done = true := rfl
@[simp] theorem State.setClass_ovr (s : State) (c : ClassCode) : (s.setClass c).ovr = s.ovr := rfl
@[simp] theorem State.setClass_wbz (s : State) (c : ClassCode) : (s.setClass c).wbz = s.wbz := rfl
@[simp] theorem State.setClass_rxovf (s : State) (c : ClassCode) : (s.setClass c).rxovf = s.rxovf := rfl
@[simp] theorem State.setClass_res (s : State) (c : ClassCode) : (s.setClass c).res = true := rfl
@[simp] theorem State.setClass_err (s : State) (c : ClassCode) : (s.setClass c).err = .none := rfl
@[simp] theorem State.setClass_result (s : State) (c : ClassCode) : (s.setClass c).result = (classCode c).setWidth 32 := rfl
@[simp] theorem State.setClass_rxlen (s : State) (c : ClassCode) : (s.setClass c).rxlen = s.rxlen := rfl
@[simp] theorem State.setClass_txlen (s : State) (c : ClassCode) : (s.setClass c).txlen = s.txlen := rfl
@[simp] theorem State.setClass_mbSlave (s : State) (c : ClassCode) : (s.setClass c).mbSlave = s.mbSlave := rfl
@[simp] theorem State.setClass_mbFunc (s : State) (c : ClassCode) : (s.setClass c).mbFunc = s.mbFunc := rfl
@[simp] theorem State.setClass_mbStart (s : State) (c : ClassCode) : (s.setClass c).mbStart = s.mbStart := rfl
@[simp] theorem State.setClass_mbCount (s : State) (c : ClassCode) : (s.setClass c).mbCount = s.mbCount := rfl
@[simp] theorem State.setClass_vbDest (s : State) (c : ClassCode) : (s.setClass c).vbDest = s.vbDest := rfl
@[simp] theorem State.setClass_vbSrc (s : State) (c : ClassCode) : (s.setClass c).vbSrc = s.vbSrc := rfl
@[simp] theorem State.setClass_parse (s : State) (c : ClassCode) : (s.setClass c).parse = s.parse := rfl
@[simp] theorem State.setClass_pv (s : State) (c : ClassCode) : (s.setClass c).pv = s.pv := rfl
@[simp] theorem State.setClass_scIn (s : State) (c : ClassCode) : (s.setClass c).scIn = s.scIn := rfl
@[simp] theorem State.setClass_scClass (s : State) (c : ClassCode) : (s.setClass c).scClass = c := rfl
@[simp] theorem State.setClass_decInfo (s : State) (c : ClassCode) : (s.setClass c).decInfo = s.decInfo := rfl
@[simp] theorem State.setClass_slots (s : State) (c : ClassCode) : (s.setClass c).slots = s.slots := rfl
@[simp] theorem State.setClass_fdesc (s : State) (c : ClassCode) : (s.setClass c).fdesc = s.fdesc := rfl
@[simp] theorem State.setClass_cmdt (s : State) (c : ClassCode) : (s.setClass c).cmdt = s.cmdt := rfl
@[simp] theorem State.setClass_mem (s : State) (c : ClassCode) : (s.setClass c).mem = s.mem := rfl
@[simp] theorem State.setClass_params (s : State) (c : ClassCode) : (s.setClass c).params = s.params := rfl
@[simp] theorem State.setClass_bufDraw (s : State) (c : ClassCode) : (s.setClass c).bufDraw = s.bufDraw := rfl
@[simp] theorem State.setClass_draws (s : State) (c : ClassCode) : (s.setClass c).draws = s.draws := rfl
@[simp] theorem State.setClass_vars (s : State) (c : ClassCode) : (s.setClass c).vars = s.vars := rfl
@[simp] theorem State.setClass_host (s : State) (c : ClassCode) : (s.setClass c).host = s.host := rfl
@[simp] theorem State.setClass_reply (s : State) (c : ClassCode) : (s.setClass c).reply = s.reply := rfl

@[simp] theorem State.setSelLen_ie (s : State) (sel : Sel) (n : BufLen) : (s.setSelLen sel n).ie = s.ie := by cases sel <;> rfl
@[simp] theorem State.setSelLen_mbck (s : State) (sel : Sel) (n : BufLen) : (s.setSelLen sel n).mbck = s.mbck := by cases sel <;> rfl
@[simp] theorem State.setSelLen_cmd (s : State) (sel : Sel) (n : BufLen) : (s.setSelLen sel n).cmd = s.cmd := by cases sel <;> rfl
@[simp] theorem State.setSelLen_engine (s : State) (sel : Sel) (n : BufLen) : (s.setSelLen sel n).engine = s.engine := by cases sel <;> rfl
@[simp] theorem State.setSelLen_done (s : State) (sel : Sel) (n : BufLen) : (s.setSelLen sel n).done = s.done := by cases sel <;> rfl
@[simp] theorem State.setSelLen_ovr (s : State) (sel : Sel) (n : BufLen) : (s.setSelLen sel n).ovr = s.ovr := by cases sel <;> rfl
@[simp] theorem State.setSelLen_wbz (s : State) (sel : Sel) (n : BufLen) : (s.setSelLen sel n).wbz = s.wbz := by cases sel <;> rfl
@[simp] theorem State.setSelLen_rxovf (s : State) (sel : Sel) (n : BufLen) : (s.setSelLen sel n).rxovf = s.rxovf := by cases sel <;> rfl
@[simp] theorem State.setSelLen_res (s : State) (sel : Sel) (n : BufLen) : (s.setSelLen sel n).res = s.res := by cases sel <;> rfl
@[simp] theorem State.setSelLen_err (s : State) (sel : Sel) (n : BufLen) : (s.setSelLen sel n).err = s.err := by cases sel <;> rfl
@[simp] theorem State.setSelLen_result (s : State) (sel : Sel) (n : BufLen) : (s.setSelLen sel n).result = s.result := by cases sel <;> rfl
@[simp] theorem State.setSelLen_mbSlave (s : State) (sel : Sel) (n : BufLen) : (s.setSelLen sel n).mbSlave = s.mbSlave := by cases sel <;> rfl
@[simp] theorem State.setSelLen_mbFunc (s : State) (sel : Sel) (n : BufLen) : (s.setSelLen sel n).mbFunc = s.mbFunc := by cases sel <;> rfl
@[simp] theorem State.setSelLen_mbStart (s : State) (sel : Sel) (n : BufLen) : (s.setSelLen sel n).mbStart = s.mbStart := by cases sel <;> rfl
@[simp] theorem State.setSelLen_mbCount (s : State) (sel : Sel) (n : BufLen) : (s.setSelLen sel n).mbCount = s.mbCount := by cases sel <;> rfl
@[simp] theorem State.setSelLen_vbDest (s : State) (sel : Sel) (n : BufLen) : (s.setSelLen sel n).vbDest = s.vbDest := by cases sel <;> rfl
@[simp] theorem State.setSelLen_vbSrc (s : State) (sel : Sel) (n : BufLen) : (s.setSelLen sel n).vbSrc = s.vbSrc := by cases sel <;> rfl
@[simp] theorem State.setSelLen_parse (s : State) (sel : Sel) (n : BufLen) : (s.setSelLen sel n).parse = s.parse := by cases sel <;> rfl
@[simp] theorem State.setSelLen_pv (s : State) (sel : Sel) (n : BufLen) : (s.setSelLen sel n).pv = s.pv := by cases sel <;> rfl
@[simp] theorem State.setSelLen_scIn (s : State) (sel : Sel) (n : BufLen) : (s.setSelLen sel n).scIn = s.scIn := by cases sel <;> rfl
@[simp] theorem State.setSelLen_scClass (s : State) (sel : Sel) (n : BufLen) : (s.setSelLen sel n).scClass = s.scClass := by cases sel <;> rfl
@[simp] theorem State.setSelLen_decInfo (s : State) (sel : Sel) (n : BufLen) : (s.setSelLen sel n).decInfo = s.decInfo := by cases sel <;> rfl
@[simp] theorem State.setSelLen_slots (s : State) (sel : Sel) (n : BufLen) : (s.setSelLen sel n).slots = s.slots := by cases sel <;> rfl
@[simp] theorem State.setSelLen_fdesc (s : State) (sel : Sel) (n : BufLen) : (s.setSelLen sel n).fdesc = s.fdesc := by cases sel <;> rfl
@[simp] theorem State.setSelLen_cmdt (s : State) (sel : Sel) (n : BufLen) : (s.setSelLen sel n).cmdt = s.cmdt := by cases sel <;> rfl
@[simp] theorem State.setSelLen_mem (s : State) (sel : Sel) (n : BufLen) : (s.setSelLen sel n).mem = s.mem := by cases sel <;> rfl
@[simp] theorem State.setSelLen_params (s : State) (sel : Sel) (n : BufLen) : (s.setSelLen sel n).params = s.params := by cases sel <;> rfl
@[simp] theorem State.setSelLen_bufDraw (s : State) (sel : Sel) (n : BufLen) : (s.setSelLen sel n).bufDraw = s.bufDraw := by cases sel <;> rfl
@[simp] theorem State.setSelLen_draws (s : State) (sel : Sel) (n : BufLen) : (s.setSelLen sel n).draws = s.draws := by cases sel <;> rfl
@[simp] theorem State.setSelLen_vars (s : State) (sel : Sel) (n : BufLen) : (s.setSelLen sel n).vars = s.vars := by cases sel <;> rfl
@[simp] theorem State.setSelLen_host (s : State) (sel : Sel) (n : BufLen) : (s.setSelLen sel n).host = s.host := by cases sel <;> rfl
@[simp] theorem State.setSelLen_reply (s : State) (sel : Sel) (n : BufLen) : (s.setSelLen sel n).reply = s.reply := by cases sel <;> rfl
@[simp] theorem State.setSelLen_rxlen (s : State) (sel : Sel) (n : BufLen) : (s.setSelLen sel n).rxlen = if sel = .rxb then n else s.rxlen := by cases sel <;> rfl
@[simp] theorem State.setSelLen_txlen (s : State) (sel : Sel) (n : BufLen) : (s.setSelLen sel n).txlen = if sel = .txb then n else s.txlen := by cases sel <;> rfl

@[simp] theorem State.append_ie (s : State) (sel : Sel) (bs : List Byte) : (s.append sel bs).ie = s.ie := by cases sel <;> rfl
@[simp] theorem State.append_mbck (s : State) (sel : Sel) (bs : List Byte) : (s.append sel bs).mbck = s.mbck := by cases sel <;> rfl
@[simp] theorem State.append_cmd (s : State) (sel : Sel) (bs : List Byte) : (s.append sel bs).cmd = s.cmd := by cases sel <;> rfl
@[simp] theorem State.append_engine (s : State) (sel : Sel) (bs : List Byte) : (s.append sel bs).engine = s.engine := by cases sel <;> rfl
@[simp] theorem State.append_done (s : State) (sel : Sel) (bs : List Byte) : (s.append sel bs).done = s.done := by cases sel <;> rfl
@[simp] theorem State.append_ovr (s : State) (sel : Sel) (bs : List Byte) : (s.append sel bs).ovr = s.ovr := by cases sel <;> rfl
@[simp] theorem State.append_wbz (s : State) (sel : Sel) (bs : List Byte) : (s.append sel bs).wbz = s.wbz := by cases sel <;> rfl
@[simp] theorem State.append_rxovf (s : State) (sel : Sel) (bs : List Byte) : (s.append sel bs).rxovf = s.rxovf := by cases sel <;> rfl
@[simp] theorem State.append_res (s : State) (sel : Sel) (bs : List Byte) : (s.append sel bs).res = s.res := by cases sel <;> rfl
@[simp] theorem State.append_err (s : State) (sel : Sel) (bs : List Byte) : (s.append sel bs).err = s.err := by cases sel <;> rfl
@[simp] theorem State.append_result (s : State) (sel : Sel) (bs : List Byte) : (s.append sel bs).result = s.result := by cases sel <;> rfl
@[simp] theorem State.append_mbSlave (s : State) (sel : Sel) (bs : List Byte) : (s.append sel bs).mbSlave = s.mbSlave := by cases sel <;> rfl
@[simp] theorem State.append_mbFunc (s : State) (sel : Sel) (bs : List Byte) : (s.append sel bs).mbFunc = s.mbFunc := by cases sel <;> rfl
@[simp] theorem State.append_mbStart (s : State) (sel : Sel) (bs : List Byte) : (s.append sel bs).mbStart = s.mbStart := by cases sel <;> rfl
@[simp] theorem State.append_mbCount (s : State) (sel : Sel) (bs : List Byte) : (s.append sel bs).mbCount = s.mbCount := by cases sel <;> rfl
@[simp] theorem State.append_vbDest (s : State) (sel : Sel) (bs : List Byte) : (s.append sel bs).vbDest = s.vbDest := by cases sel <;> rfl
@[simp] theorem State.append_vbSrc (s : State) (sel : Sel) (bs : List Byte) : (s.append sel bs).vbSrc = s.vbSrc := by cases sel <;> rfl
@[simp] theorem State.append_parse (s : State) (sel : Sel) (bs : List Byte) : (s.append sel bs).parse = s.parse := by cases sel <;> rfl
@[simp] theorem State.append_scIn (s : State) (sel : Sel) (bs : List Byte) : (s.append sel bs).scIn = s.scIn := by cases sel <;> rfl
@[simp] theorem State.append_scClass (s : State) (sel : Sel) (bs : List Byte) : (s.append sel bs).scClass = s.scClass := by cases sel <;> rfl
@[simp] theorem State.append_decInfo (s : State) (sel : Sel) (bs : List Byte) : (s.append sel bs).decInfo = s.decInfo := by cases sel <;> rfl
@[simp] theorem State.append_slots (s : State) (sel : Sel) (bs : List Byte) : (s.append sel bs).slots = s.slots := by cases sel <;> rfl
@[simp] theorem State.append_fdesc (s : State) (sel : Sel) (bs : List Byte) : (s.append sel bs).fdesc = s.fdesc := by cases sel <;> rfl
@[simp] theorem State.append_cmdt (s : State) (sel : Sel) (bs : List Byte) : (s.append sel bs).cmdt = s.cmdt := by cases sel <;> rfl
@[simp] theorem State.append_params (s : State) (sel : Sel) (bs : List Byte) : (s.append sel bs).params = s.params := by cases sel <;> rfl
@[simp] theorem State.append_bufDraw (s : State) (sel : Sel) (bs : List Byte) : (s.append sel bs).bufDraw = s.bufDraw := by cases sel <;> rfl
@[simp] theorem State.append_draws (s : State) (sel : Sel) (bs : List Byte) : (s.append sel bs).draws = s.draws := by cases sel <;> rfl
@[simp] theorem State.append_vars (s : State) (sel : Sel) (bs : List Byte) : (s.append sel bs).vars = s.vars := by cases sel <;> rfl
@[simp] theorem State.append_host (s : State) (sel : Sel) (bs : List Byte) : (s.append sel bs).host = s.host := by cases sel <;> rfl
@[simp] theorem State.append_reply (s : State) (sel : Sel) (bs : List Byte) : (s.append sel bs).reply = s.reply := by cases sel <;> rfl
@[simp] theorem State.append_mem (s : State) (sel : Sel) (bs : List Byte) :
    (s.append sel bs).mem = writeCells s.mem (selBase sel + (s.selLen sel).val) bs := by cases sel <;> rfl
@[simp] theorem State.append_pv (s : State) (sel : Sel) (bs : List Byte) :
    (s.append sel bs).pv = if sel = .rxb then .none else s.pv := by cases sel <;> rfl
@[simp] theorem State.append_rxlen (s : State) (sel : Sel) (bs : List Byte) :
    (s.append sel bs).rxlen = if sel = .rxb then clampLen (s.rxlen.val + bs.length) else s.rxlen := by cases sel <;> rfl
@[simp] theorem State.append_txlen (s : State) (sel : Sel) (bs : List Byte) :
    (s.append sel bs).txlen = if sel = .txb then clampLen (s.txlen.val + bs.length) else s.txlen := by cases sel <;> rfl

@[simp] theorem State.tick_ie (s : State) : s.tick.ie = s.ie := by
  unfold State.tick
  split <;> rfl
@[simp] theorem State.tick_mbck (s : State) : s.tick.mbck = s.mbck := by
  unfold State.tick
  split <;> rfl
@[simp] theorem State.tick_cmd (s : State) : s.tick.cmd = s.cmd := by
  unfold State.tick
  split <;> rfl
theorem State.tick_engine (s : State) :
    s.tick.engine = match s.engine with | .idle => .idle | .running p left => .running p (left - 1) := by
  unfold State.tick
  split <;> simp_all
@[simp] theorem State.tick_done (s : State) : s.tick.done = s.done := by
  unfold State.tick
  split <;> rfl
@[simp] theorem State.tick_ovr (s : State) : s.tick.ovr = s.ovr := by
  unfold State.tick
  split <;> rfl
@[simp] theorem State.tick_wbz (s : State) : s.tick.wbz = s.wbz := by
  unfold State.tick
  split <;> rfl
@[simp] theorem State.tick_rxovf (s : State) : s.tick.rxovf = s.rxovf := by
  unfold State.tick
  split <;> rfl
@[simp] theorem State.tick_res (s : State) : s.tick.res = s.res := by
  unfold State.tick
  split <;> rfl
@[simp] theorem State.tick_err (s : State) : s.tick.err = s.err := by
  unfold State.tick
  split <;> rfl
@[simp] theorem State.tick_result (s : State) : s.tick.result = s.result := by
  unfold State.tick
  split <;> rfl
@[simp] theorem State.tick_rxlen (s : State) : s.tick.rxlen = s.rxlen := by
  unfold State.tick
  split <;> rfl
@[simp] theorem State.tick_txlen (s : State) : s.tick.txlen = s.txlen := by
  unfold State.tick
  split <;> rfl
@[simp] theorem State.tick_mbSlave (s : State) : s.tick.mbSlave = s.mbSlave := by
  unfold State.tick
  split <;> rfl
@[simp] theorem State.tick_mbFunc (s : State) : s.tick.mbFunc = s.mbFunc := by
  unfold State.tick
  split <;> rfl
@[simp] theorem State.tick_mbStart (s : State) : s.tick.mbStart = s.mbStart := by
  unfold State.tick
  split <;> rfl
@[simp] theorem State.tick_mbCount (s : State) : s.tick.mbCount = s.mbCount := by
  unfold State.tick
  split <;> rfl
@[simp] theorem State.tick_vbDest (s : State) : s.tick.vbDest = s.vbDest := by
  unfold State.tick
  split <;> rfl
@[simp] theorem State.tick_vbSrc (s : State) : s.tick.vbSrc = s.vbSrc := by
  unfold State.tick
  split <;> rfl
@[simp] theorem State.tick_parse (s : State) : s.tick.parse = s.parse := by
  unfold State.tick
  split <;> rfl
@[simp] theorem State.tick_pv (s : State) : s.tick.pv = s.pv := by
  unfold State.tick
  split <;> rfl
@[simp] theorem State.tick_scIn (s : State) : s.tick.scIn = s.scIn := by
  unfold State.tick
  split <;> rfl
@[simp] theorem State.tick_scClass (s : State) : s.tick.scClass = s.scClass := by
  unfold State.tick
  split <;> rfl
@[simp] theorem State.tick_decInfo (s : State) : s.tick.decInfo = s.decInfo := by
  unfold State.tick
  split <;> rfl
@[simp] theorem State.tick_slots (s : State) : s.tick.slots = s.slots := by
  unfold State.tick
  split <;> rfl
@[simp] theorem State.tick_fdesc (s : State) : s.tick.fdesc = s.fdesc := by
  unfold State.tick
  split <;> rfl
@[simp] theorem State.tick_cmdt (s : State) : s.tick.cmdt = s.cmdt := by
  unfold State.tick
  split <;> rfl
@[simp] theorem State.tick_mem (s : State) : s.tick.mem = s.mem := by
  unfold State.tick
  split <;> rfl
@[simp] theorem State.tick_params (s : State) : s.tick.params = s.params := by
  unfold State.tick
  split <;> rfl
@[simp] theorem State.tick_bufDraw (s : State) : s.tick.bufDraw = s.bufDraw := by
  unfold State.tick
  split <;> rfl
@[simp] theorem State.tick_draws (s : State) : s.tick.draws = s.draws := by
  unfold State.tick
  split <;> rfl
@[simp] theorem State.tick_vars (s : State) : s.tick.vars = s.vars := by
  unfold State.tick
  split <;> rfl
@[simp] theorem State.tick_host (s : State) : s.tick.host = s.host := by
  unfold State.tick
  split <;> rfl
@[simp] theorem State.tick_reply (s : State) : s.tick.reply = s.reply := by
  unfold State.tick
  split <;> rfl

@[simp] theorem State.writeStatus_ie (s : State) (d : Word) : (s.writeStatus d).ie = s.ie := by
  unfold State.writeStatus
  cases d.getLsbD 1 <;> rfl
@[simp] theorem State.writeStatus_mbck (s : State) (d : Word) : (s.writeStatus d).mbck = s.mbck := by
  unfold State.writeStatus
  cases d.getLsbD 1 <;> rfl
@[simp] theorem State.writeStatus_cmd (s : State) (d : Word) : (s.writeStatus d).cmd = s.cmd := by
  unfold State.writeStatus
  cases d.getLsbD 1 <;> rfl
@[simp] theorem State.writeStatus_engine (s : State) (d : Word) : (s.writeStatus d).engine = s.engine := by
  unfold State.writeStatus
  cases d.getLsbD 1 <;> rfl
@[simp] theorem State.writeStatus_done (s : State) (d : Word) : (s.writeStatus d).done = (s.done && !d.getLsbD 1) := by
  unfold State.writeStatus
  cases d.getLsbD 1 <;> simp
@[simp] theorem State.writeStatus_ovr (s : State) (d : Word) : (s.writeStatus d).ovr = (s.ovr && !d.getLsbD 2) := by
  unfold State.writeStatus
  cases d.getLsbD 1 <;> rfl
@[simp] theorem State.writeStatus_wbz (s : State) (d : Word) : (s.writeStatus d).wbz = (s.wbz && !d.getLsbD 3) := by
  unfold State.writeStatus
  cases d.getLsbD 1 <;> rfl
@[simp] theorem State.writeStatus_rxovf (s : State) (d : Word) : (s.writeStatus d).rxovf = (s.rxovf && !d.getLsbD 4) := by
  unfold State.writeStatus
  cases d.getLsbD 1 <;> rfl
@[simp] theorem State.writeStatus_res (s : State) (d : Word) : (s.writeStatus d).res = s.res := by
  unfold State.writeStatus
  cases d.getLsbD 1 <;> rfl
@[simp] theorem State.writeStatus_err (s : State) (d : Word) : (s.writeStatus d).err = s.err := by
  unfold State.writeStatus
  cases d.getLsbD 1 <;> rfl
@[simp] theorem State.writeStatus_result (s : State) (d : Word) : (s.writeStatus d).result = s.result := by
  unfold State.writeStatus
  cases d.getLsbD 1 <;> rfl
@[simp] theorem State.writeStatus_rxlen (s : State) (d : Word) : (s.writeStatus d).rxlen = s.rxlen := by
  unfold State.writeStatus
  cases d.getLsbD 1 <;> rfl
@[simp] theorem State.writeStatus_txlen (s : State) (d : Word) : (s.writeStatus d).txlen = s.txlen := by
  unfold State.writeStatus
  cases d.getLsbD 1 <;> rfl
@[simp] theorem State.writeStatus_mbSlave (s : State) (d : Word) : (s.writeStatus d).mbSlave = s.mbSlave := by
  unfold State.writeStatus
  cases d.getLsbD 1 <;> rfl
@[simp] theorem State.writeStatus_mbFunc (s : State) (d : Word) : (s.writeStatus d).mbFunc = s.mbFunc := by
  unfold State.writeStatus
  cases d.getLsbD 1 <;> rfl
@[simp] theorem State.writeStatus_mbStart (s : State) (d : Word) : (s.writeStatus d).mbStart = s.mbStart := by
  unfold State.writeStatus
  cases d.getLsbD 1 <;> rfl
@[simp] theorem State.writeStatus_mbCount (s : State) (d : Word) : (s.writeStatus d).mbCount = s.mbCount := by
  unfold State.writeStatus
  cases d.getLsbD 1 <;> rfl
@[simp] theorem State.writeStatus_vbDest (s : State) (d : Word) : (s.writeStatus d).vbDest = s.vbDest := by
  unfold State.writeStatus
  cases d.getLsbD 1 <;> rfl
@[simp] theorem State.writeStatus_vbSrc (s : State) (d : Word) : (s.writeStatus d).vbSrc = s.vbSrc := by
  unfold State.writeStatus
  cases d.getLsbD 1 <;> rfl
@[simp] theorem State.writeStatus_parse (s : State) (d : Word) : (s.writeStatus d).parse = s.parse := by
  unfold State.writeStatus
  cases d.getLsbD 1 <;> rfl
@[simp] theorem State.writeStatus_pv (s : State) (d : Word) : (s.writeStatus d).pv = s.pv := by
  unfold State.writeStatus
  cases d.getLsbD 1 <;> rfl
@[simp] theorem State.writeStatus_scIn (s : State) (d : Word) : (s.writeStatus d).scIn = s.scIn := by
  unfold State.writeStatus
  cases d.getLsbD 1 <;> rfl
@[simp] theorem State.writeStatus_scClass (s : State) (d : Word) : (s.writeStatus d).scClass = s.scClass := by
  unfold State.writeStatus
  cases d.getLsbD 1 <;> rfl
@[simp] theorem State.writeStatus_decInfo (s : State) (d : Word) : (s.writeStatus d).decInfo = s.decInfo := by
  unfold State.writeStatus
  cases d.getLsbD 1 <;> rfl
@[simp] theorem State.writeStatus_slots (s : State) (d : Word) : (s.writeStatus d).slots = s.slots := by
  unfold State.writeStatus
  cases d.getLsbD 1 <;> rfl
@[simp] theorem State.writeStatus_fdesc (s : State) (d : Word) : (s.writeStatus d).fdesc = s.fdesc := by
  unfold State.writeStatus
  cases d.getLsbD 1 <;> rfl
@[simp] theorem State.writeStatus_cmdt (s : State) (d : Word) : (s.writeStatus d).cmdt = s.cmdt := by
  unfold State.writeStatus
  cases d.getLsbD 1 <;> rfl
@[simp] theorem State.writeStatus_mem (s : State) (d : Word) : (s.writeStatus d).mem = s.mem := by
  unfold State.writeStatus
  cases d.getLsbD 1 <;> rfl
@[simp] theorem State.writeStatus_params (s : State) (d : Word) : (s.writeStatus d).params = s.params := by
  unfold State.writeStatus
  cases d.getLsbD 1 <;> rfl
@[simp] theorem State.writeStatus_bufDraw (s : State) (d : Word) : (s.writeStatus d).bufDraw = s.bufDraw := by
  unfold State.writeStatus
  cases d.getLsbD 1 <;> rfl
@[simp] theorem State.writeStatus_draws (s : State) (d : Word) : (s.writeStatus d).draws = s.draws := by
  unfold State.writeStatus
  cases d.getLsbD 1 <;> rfl
@[simp] theorem State.writeStatus_vars (s : State) (d : Word) : (s.writeStatus d).vars = s.vars := by
  unfold State.writeStatus
  cases d.getLsbD 1 <;> rfl
@[simp] theorem State.writeStatus_host (s : State) (d : Word) : (s.writeStatus d).host = s.host := by
  unfold State.writeStatus
  cases d.getLsbD 1 <;> rfl
@[simp] theorem State.writeStatus_reply (s : State) (d : Word) : (s.writeStatus d).reply = s.reply := by
  unfold State.writeStatus
  cases d.getLsbD 1 <;> rfl

end Sys2Proof.Machine
end

