-- ==== Sys2Proof/Laws/Memory.lean ====
section
/-! SUPPORT. The laws of the buffer memory: a read after a write, other bytes left alone, the canonical form kept. -/

namespace Sys2Proof.Machine

theorem lookupAt_insertAt {α : Type} (m : List (Nat × α)) (a b : Nat) (v : α) :
    lookupAt (insertAt m a v) b = if b = a then some v else lookupAt m b := by
  induction m with
  | nil => simp [insertAt, lookupAt, eq_comm]
  | cons c rest ih =>
    obtain ⟨k, w⟩ := c
    rcases lt_trichotomy a k with h | h | h
    · simp [insertAt, lookupAt, h, eq_comm]
    · subst h
      by_cases hb : b = a
      · simp [insertAt, lookupAt, hb]
      · simp [insertAt, lookupAt, hb, Ne.symm hb]
    · have h1 : ¬ a < k := by omega
      have h2 : a ≠ k := by omega
      simp only [insertAt, h1, h2, if_false, lookupAt, ih]
      by_cases hk : k = b
      · have : b ≠ a := by omega
        simp [hk, this]
      · simp [hk]

theorem keysRising_mono {α : Type} {lo lo' : Nat} (m : List (Nat × α)) (h : lo' ≤ lo)
    (hm : keysRising lo m = true) : keysRising lo' m = true := by
  cases m with
  | nil => rfl
  | cons c rest =>
    simp only [keysRising, Bool.and_eq_true, decide_eq_true_eq] at hm ⊢
    exact ⟨h.trans hm.1, hm.2⟩

theorem keysRising_insertAt {α : Type} (m : List (Nat × α)) (lo a : Nat) (v : α) (ha : lo ≤ a)
    (hm : keysRising lo m = true) : keysRising lo (insertAt m a v) = true := by
  induction m generalizing lo with
  | nil => simp [insertAt, keysRising, ha]
  | cons c rest ih =>
    obtain ⟨k, w⟩ := c
    simp only [keysRising, Bool.and_eq_true, decide_eq_true_eq] at hm
    unfold insertAt
    split
    · rename_i h
      simp only [keysRising, Bool.and_eq_true, decide_eq_true_eq]
      exact ⟨ha, by omega, hm.2⟩
    · split
      · rename_i h; subst h
        simp only [keysRising, Bool.and_eq_true, decide_eq_true_eq]
        exact ⟨ha, hm.2⟩
      · simp only [keysRising, Bool.and_eq_true, decide_eq_true_eq]
        exact ⟨hm.1, ih (k + 1) (by omega) hm.2⟩

/-- Two lists with strictly rising keys that agree under every key are equal: the canonical form names each memory once. -/
theorem eq_of_lookupAt_eq {α : Type} (m m' : List (Nat × α)) (lo : Nat) (hm : keysRising lo m = true)
    (hm' : keysRising lo m' = true) (h : ∀ a, lookupAt m a = lookupAt m' a) : m = m' := by
  have below : ∀ (l : List (Nat × α)) (lo b : Nat), keysRising lo l = true → b < lo → lookupAt l b = none := by
    intro l
    induction l with
    | nil => intros; rfl
    | cons c rest ih =>
      intro lo b hl hb
      simp only [keysRising, Bool.and_eq_true, decide_eq_true_eq] at hl
      simp only [lookupAt, show c.1 ≠ b by omega, if_false]
      exact ih (c.1 + 1) b hl.2 (by omega)
  induction m generalizing m' lo with
  | nil =>
    cases m' with
    | nil => rfl
    | cons c rest => have := h c.1; simp [lookupAt] at this
  | cons c rest ih =>
    cases m' with
    | nil => have := h c.1; simp [lookupAt] at this
    | cons c' rest' =>
      obtain ⟨k, v⟩ := c
      obtain ⟨k', v'⟩ := c'
      simp only [keysRising, Bool.and_eq_true, decide_eq_true_eq] at hm hm'
      have hk : k = k' := by
        rcases lt_trichotomy k k' with hlt | heq | hgt
        · have := h k
          rw [below ((k', v') :: rest') k' k (by simp [keysRising, hm'.2]) hlt] at this
          simp [lookupAt] at this
        · exact heq
        · have := h k'
          rw [below ((k, v) :: rest) k k' (by simp [keysRising, hm.2]) hgt] at this
          simp [lookupAt] at this
      subst hk
      have hv : v = v' := by simpa [lookupAt] using h k
      subst hv
      have : rest = rest' := by
        refine ih rest' (k + 1) hm.2 hm'.2 (fun a => ?_)
        by_cases ha : k = a
        · subst ha
          rw [below rest (k + 1) k hm.2 (by omega), below rest' (k + 1) k hm'.2 (by omega)]
        · simpa [lookupAt, ha] using h a
      rw [this]

theorem mem_insertAt {α : Type} (m : List (Nat × α)) (a : Nat) (v : α) (c : Nat × α)
    (h : c ∈ insertAt m a v) : c = (a, v) ∨ c ∈ m := by
  induction m with
  | nil => simpa [insertAt] using h
  | cons d rest ih =>
    unfold insertAt at h
    split at h
    · simpa using h
    · split at h
      · rcases List.mem_cons.1 h with h | h
        · exact .inl h
        · exact .inr (List.mem_cons_of_mem _ h)
      · rcases List.mem_cons.1 h with h | h
        · exact .inr (by simp [h])
        · exact (ih h).imp_right (List.mem_cons_of_mem _)

theorem wf_insertAt (m : Memory) (a : Nat) (b : Byte) (hm : Memory.wf m = true)
    (lo : Config.rxBase ≤ a) (hi : a < Config.windowBytes) : Memory.wf (insertAt m a b) = true := by
  simp only [Memory.wf, Bool.and_eq_true, List.all_eq_true, decide_eq_true_eq] at hm ⊢
  refine ⟨keysRising_insertAt m _ a b lo hm.1, fun c hc => ?_⟩
  rcases mem_insertAt m a b c hc with h | h
  · simpa [h] using hi
  · exact hm.2 c h

theorem wf_writeCells (m : Memory) (a : Nat) (bs : List Byte) (hm : Memory.wf m = true)
    (lo : Config.rxBase ≤ a) (hi : a + bs.length ≤ Config.windowBytes) : Memory.wf (writeCells m a bs) = true := by
  induction bs generalizing m a with
  | nil => exact hm
  | cons b bs ih =>
    simp only [List.length_cons] at hi
    exact ih _ _ (wf_insertAt m a b hm lo (by omega)) (by omega) (by omega)

theorem lookupAt_writeCells (m : Memory) (a b : Nat) (bs : List Byte) :
    lookupAt (writeCells m a bs) b = if h : a ≤ b ∧ b < a + bs.length then some bs[b - a] else lookupAt m b := by
  induction bs generalizing m a with
  | nil => simp [writeCells]
  | cons c bs ih =>
    rw [writeCells, ih, lookupAt_insertAt]
    simp only [List.length_cons]
    by_cases h1 : b = a
    · subst h1; simp
    · by_cases h2 : a ≤ b ∧ b < a + (bs.length + 1)
      · have h3 : a + 1 ≤ b ∧ b < a + 1 + bs.length := by omega
        obtain ⟨j, hj⟩ : ∃ j, b - a = j + 1 := ⟨b - a - 1, by omega⟩
        have hj' : b - (a + 1) = j := by omega
        simp [h2, h3, hj, hj']
      · have h3 : ¬ (a + 1 ≤ b ∧ b < a + 1 + bs.length) := by omega
        rw [dif_neg h3, dif_neg h2, if_neg h1]

theorem State.byteAt_congr (s t : State) (a : Nat) (hm : t.mem = s.mem) (hd : t.bufDraw = s.bufDraw) :
    t.byteAt a = s.byteAt a := by
  simp [State.byteAt, hm, hd]

/-- A write of bytes from `a` on: those bytes read back, every other byte as before. -/
theorem State.byteAt_writeBytes (s : State) (a b : Nat) (bs : List Byte) :
    (s.writeBytes a bs).byteAt b = if h : a ≤ b ∧ b < a + bs.length then bs[b - a] else s.byteAt b := by
  simp only [State.byteAt, State.writeBytes_mem, State.writeBytes_bufDraw, lookupAt_writeCells]
  split <;> rfl

theorem State.length_readBytes (s : State) (a n : Nat) : (s.readBytes a n).length = n := by
  induction n generalizing a with
  | zero => rfl
  | succ n ih => simp [State.readBytes, ih]

theorem State.getElem_readBytes (s : State) (a n j : Nat) (h : j < (s.readBytes a n).length) :
    (s.readBytes a n)[j] = s.byteAt (a + j) := by
  induction n generalizing a j with
  | zero => simp [State.readBytes] at h
  | succ n ih =>
    cases j with
    | zero => simp [State.readBytes]
    | succ j =>
      simp only [State.readBytes, List.getElem_cons_succ]
      rw [ih]
      congr 1; omega

/-- Reading is determined by the bytes that are read. -/
theorem State.readBytes_congr (s t : State) (a n : Nat) (h : ∀ j < n, t.byteAt (a + j) = s.byteAt (a + j)) :
    t.readBytes a n = s.readBytes a n := by
  induction n generalizing a with
  | zero => rfl
  | succ n ih =>
    simp only [State.readBytes]
    have h0 : t.byteAt a = s.byteAt a := h 0 (by omega)
    rw [h0, ih (a + 1) (fun j hj => by have := h (j + 1) (by omega); rwa [show a + 1 + j = a + (j + 1) by omega])]

theorem State.readBytes_add (s : State) (a m n : Nat) :
    s.readBytes a (m + n) = s.readBytes a m ++ s.readBytes (a + m) n := by
  induction m generalizing a with
  | zero => simp [State.readBytes]
  | succ m ih =>
    rw [show m + 1 + n = (m + n) + 1 by omega]
    simp only [State.readBytes, List.cons_append]
    rw [ih (a + 1), show a + 1 + m = a + (m + 1) by omega]

/-- A write of bytes reads back whole. -/
theorem State.readBytes_writeBytes (s : State) (a : Nat) (bs : List Byte) :
    (s.writeBytes a bs).readBytes a bs.length = bs := by
  apply List.ext_getElem
  · rw [State.length_readBytes]
  · intro j h1 h2
    rw [State.getElem_readBytes, State.byteAt_writeBytes]
    simp [h2]

/-- A write that touches none of the bytes read leaves the read as it was. -/
theorem State.readBytes_writeBytes_of_disjoint (s : State) (a b n : Nat) (bs : List Byte)
    (h : b + n ≤ a ∨ a + bs.length ≤ b) : (s.writeBytes a bs).readBytes b n = s.readBytes b n := by
  refine State.readBytes_congr _ _ _ _ (fun j hj => ?_)
  rw [State.byteAt_writeBytes, dif_neg (by omega)]

theorem wf_reset : Memory.wf State.reset.mem = true := rfl

end Sys2Proof.Machine
end

