-- ==== Sys2Proof/Laws/FieldDecoder.lean ====
section
/-! SUPPORT. What the descriptor loop of the decoders can do: either every descriptor is applied and the slots hold the sums of
their contributors, or the first failing check stops it. -/

namespace Sys2Proof.Machine

/-- The value of a raw field, 0 where it could not be taken. -/
def rawValue (raw : Fin 32 → Except Reason Nat) (i : Fin 32) : Nat :=
  match raw i with
  | .ok v => v
  | .error _ => 0

/-- The working copy after the first `n` descriptors were applied. -/
structure Decoded (t : Vector FDesc 32) (val : Fin 32 → Nat) (n : Nat) (w : DecodeWork) : Prop where
  applied : w.applied = ((indicesBelow n).filter (fun i => t[i].active)).length
  empty : ∀ k : Fin 32, contributors t n k = [] → w.slots[k] = Slot.empty
  held : ∀ k : Fin 32, ∀ i ∈ contributors t n k, w.slots[k].valid = true ∧ w.slots[k].den = t[i].scale
  num : ∀ k : Fin 32, w.slots[k].num.toNat = rawSum val (contributors t n k)

/-- Why descriptor `i` stops the loop with reason `r`: its first failing check, the earlier checks having passed. -/
inductive FieldFails (t : Vector FDesc 32) (raw : Fin 32 → Except Reason Nat) (i : Fin 32) : Reason → Prop where
  | badScale (ha : t[i].active = true) (hs : t[i].scale = 0#16) : FieldFails t raw i .badScale
  | raw (r : Reason) (ha : t[i].active = true) (hs : t[i].scale ≠ 0#16) (hr : raw i = .error r) : FieldFails t raw i r
  | duplicate (hp : t[i].scale ≠ 0#16 ∧ ∃ v, raw i = .ok v) (hk : t[i].kind = .simple) (j : Fin 32) (hj : j < i)
      (hs : t[j].kind = .simple) (he : t[j].slot = t[i].slot) : FieldFails t raw i .simpleDuplicate
  | noPrior (hp : t[i].scale ≠ 0#16 ∧ ∃ v, raw i = .ok v) (hk : t[i].kind = .cont)
      (h : ∀ j : Fin 32, j < i → t[j].kind = .simple → t[j].slot ≠ t[i].slot) :
      FieldFails t raw i .contNoPrior
  | mismatch (hp : t[i].scale ≠ 0#16 ∧ ∃ v, raw i = .ok v) (hk : t[i].kind = .cont) (j : Fin 32) (hj : j < i)
      (hs : t[j].kind = .simple) (he : t[j].slot = t[i].slot) (hd : t[j].scale ≠ t[i].scale) : FieldFails t raw i .scaleMismatch

theorem decodeFields_append (t : Vector FDesc 32) (raw : Fin 32 → Except Reason Nat) (l l' : List (Fin 32)) (w : DecodeWork) :
    decodeFields t raw (l ++ l') w =
      match decodeFields t raw l w with
      | .ok w' => decodeFields t raw l' w'
      | .error e => .error e := by
  induction l generalizing w with
  | nil => rfl
  | cons i l ih =>
    simp only [List.cons_append, decodeFields]
    split
    · rfl
    · exact ih _

theorem indicesBelow_succ (n : Nat) (h : n < 32) : indicesBelow (n + 1) = indicesBelow n ++ [⟨n, h⟩] := by
  simp only [indicesBelow]
  rw [List.take_add_one]
  simp [h]

theorem mem_indicesBelow (n : Nat) (i : Fin 32) : i ∈ indicesBelow n ↔ i.val < n := by
  simp only [indicesBelow, List.mem_take_iff_getElem, List.length_finRange, List.getElem_finRange]
  constructor
  · rintro ⟨j, hj, rfl⟩
    simp
    omega
  · intro h
    exact ⟨i.val, by omega, by simp⟩

theorem indicesBelow_min (n : Nat) : indicesBelow n = indicesBelow (min n 32) := by
  by_cases h : n ≤ 32
  · rw [Nat.min_eq_left h]
  · rw [Nat.min_eq_right (by omega), indicesBelow, indicesBelow, List.take_of_length_le (by simp; omega),
      List.take_of_length_le (by simp)]

theorem length_indicesBelow_le (n : Nat) : (indicesBelow n).length ≤ 32 := by
  simp [indicesBelow]

theorem mem_contributors (t : Vector FDesc 32) (n : Nat) (k i : Fin 32) :
    i ∈ contributors t n k ↔ i.val < n ∧ t[i].active = true ∧ t[i].slot = k := by
  simp [contributors, mem_indicesBelow]

theorem contributors_succ (t : Vector FDesc 32) (n : Nat) (h : n < 32) (k : Fin 32) :
    contributors t (n + 1) k =
      contributors t n k ++ if t[n].active = true ∧ t[n].slot = k then [⟨n, h⟩] else [] := by
  simp only [contributors, indicesBelow_succ n h, List.filter_append, List.filter_cons, List.filter_nil]
  simp [Bool.and_eq_true]

theorem rawSum_append (val : Fin 32 → Nat) (l l' : List (Fin 32)) : rawSum val (l ++ l') = rawSum val l + rawSum val l' := by
  induction l with
  | nil => simp [rawSum]
  | cons i l ih => simp [rawSum, ih]; omega

theorem rawSum_le (val : Fin 32 → Nat) (b : Nat) (l : List (Fin 32)) (h : ∀ i ∈ l, val i ≤ b) :
    rawSum val l ≤ l.length * b := by
  induction l with
  | nil => simp [rawSum]
  | cons i l ih =>
    simp only [rawSum, List.length_cons, Nat.add_mul, Nat.one_mul]
    have := ih (fun j hj => h j (List.mem_cons_of_mem _ hj))
    have := h i (List.mem_cons_self)
    omega

theorem length_contributors_le (t : Vector FDesc 32) (n : Nat) (k : Fin 32) : (contributors t n k).length ≤ 32 :=
  (List.length_filter_le _ _).trans (length_indicesBelow_le n)

theorem decoded_zero (t : Vector FDesc 32) (val : Fin 32 → Nat) : Decoded t val 0 emptyWork where
  applied := rfl
  empty k _ := by simp [emptyWork]
  held k i hi := by simp [mem_contributors] at hi
  num k := by simp [emptyWork, contributors, indicesBelow, rawSum, Slot.empty]

theorem active_of_simple {d : FDesc} (h : d.kind = .simple) : d.active = true := by simp [FDesc.active, h]

theorem active_of_cont {d : FDesc} (h : d.kind = .cont) : d.active = true := by simp [FDesc.active, h]

theorem simple_or_cont_of_active {d : FDesc} (h : d.active = true) : d.kind = .simple ∨ d.kind = .cont := by
  cases hk : d.kind <;> simp [FDesc.active, hk] at h ⊢

theorem kindCheck_simple {d : FDesc} (h : d.kind = .simple) (sl : Slot) :
    kindCheck d sl = if sl.valid = true then .simpleDuplicate else .none := by
  simp [kindCheck, h]

theorem kindCheck_cont {d : FDesc} (h : d.kind = .cont) (sl : Slot) :
    kindCheck d sl = if sl.valid = true then (if sl.den = d.scale then .none else .scaleMismatch) else .contNoPrior := by
  cases hv : sl.valid <;> simp [kindCheck, h, hv]

/-- In a consistent prefix, a slot with a contributor has a SIMPLE one. -/
theorem exists_simple_of_consistent {t : Vector FDesc 32} {n : Nat} (h : tableConsistent t n) (k j : Fin 32)
    (hj : j ∈ contributors t n k) : ∃ i : Fin 32, i.val < n ∧ t[i].kind = .simple ∧ t[i].slot = k := by
  rw [mem_contributors] at hj
  obtain ⟨hn, ha, hk⟩ := hj
  rcases simple_or_cont_of_active ha with hkind | hkind
  · exact ⟨j, hn, hkind, hk⟩
  · obtain ⟨i, hi, hs, he, -⟩ := h.contsFollow j hn hkind
    have hi' : i.val < j.val := hi
    exact ⟨i, by omega, hs, he.trans hk⟩

/-- Applying one more descriptor whose checks passed. -/
theorem decoded_apply {t : Vector FDesc 32} {val : Fin 32 → Nat} {n : Nat} {w : DecodeWork} (h : n < 32)
    (hw : Decoded t val n w) (ha : t[n].active = true) (hval : ∀ i : Fin 32, i.val ≤ n → val i < 2 ^ 24)
    (hkind : kindCheck t[n] w.slots[t[n].slot] = .none) :
    Decoded t val (n + 1) (applyField t[n] (val ⟨n, h⟩) w) := by
  have hlen : ∀ k, (contributors t (n + 1) k).length ≤ 32 := length_contributors_le t (n + 1)
  have hsum : ∀ k, rawSum val (contributors t (n + 1) k) < 2 ^ 32 := by
    intro k
    have h1 := rawSum_le val (2 ^ 24) (contributors t (n + 1) k) (fun i hi => by
      rw [mem_contributors] at hi
      exact (hval i (by omega)).le)
    have h2 := Nat.mul_le_mul_right (2 ^ 24) (hlen k)
    omega
  have hfilter : ((indicesBelow (n + 1)).filter (fun i => t[i].active)).length =
      ((indicesBelow n).filter (fun i => t[i].active)).length + 1 := by
    rw [indicesBelow_succ n h]; simp [ha]
  have hkeep : ∀ k, t[n].slot ≠ k → contributors t (n + 1) k = contributors t n k := by
    intro k hk; rw [contributors_succ t n h, if_neg (by simp [hk])]; simp
  have hadd : contributors t (n + 1) t[n].slot = contributors t n t[n].slot ++ [⟨n, h⟩] := by
    rw [contributors_succ t n h, if_pos ⟨ha, rfl⟩]
  have hset : ∀ (x : Slot) (k : Fin 32), (w.slots.set t[n].slot x)[k] = if t[n].slot = k then x else w.slots[k] := by
    intro x k
    simp [Vector.getElem_set, Fin.ext_iff]
  rcases simple_or_cont_of_active ha with hk | hk
  · have hv : w.slots[t[n].slot].valid = false := by
      rw [kindCheck_simple hk] at hkind
      cases hv : w.slots[t[n].slot].valid with
      | false => rfl
      | true => rw [if_pos hv] at hkind; cases hkind
    have hnone : contributors t n t[n].slot = [] := by
      cases hc : contributors t n t[n].slot with
      | nil => rfl
      | cons i l =>
        have := (hw.held t[n].slot i (by simp [hc])).1
        rw [hv] at this; cases this
    rw [hnone, List.nil_append] at hadd
    have hs0 := hsum t[n].slot
    rw [hadd] at hs0
    simp only [applyField, hk]
    refine ⟨by rw [hfilter, hw.applied], fun k hkk => ?_, fun k i hi => ?_, fun k => ?_⟩
    · have hne : t[n].slot ≠ k := by rintro rfl; rw [hadd] at hkk; cases hkk
      rw [hset, if_neg hne]
      exact hw.empty k (by rwa [hkeep k hne] at hkk)
    · rw [hset]
      by_cases hne : t[n].slot = k
      · subst hne
        rw [hadd, List.mem_singleton] at hi
        subst hi
        simp
      · rw [if_neg hne]
        rw [hkeep k hne] at hi
        exact hw.held k i hi
    · rw [hset]
      by_cases hne : t[n].slot = k
      · subst hne
        rw [hadd]
        simp only [rawSum, if_true, BitVec.toNat_ofNat] at hs0 ⊢
        omega
      · rw [if_neg hne, hkeep k hne, hw.num k]
  · have hv : w.slots[t[n].slot].valid = true ∧ w.slots[t[n].slot].den = t[n].scale := by
      rw [kindCheck_cont hk] at hkind
      split at hkind
      · split at hkind
        · exact ⟨by assumption, by assumption⟩
        · cases hkind
      · cases hkind
    have hs0 := hsum t[n].slot
    rw [hadd, rawSum_append] at hs0
    simp only [applyField, hk]
    refine ⟨by rw [hfilter, hw.applied], fun k hkk => ?_, fun k i hi => ?_, fun k => ?_⟩
    · have hne : t[n].slot ≠ k := by rintro rfl; rw [hadd] at hkk; simp at hkk
      rw [hset, if_neg hne]
      exact hw.empty k (by rwa [hkeep k hne] at hkk)
    · rw [hset]
      by_cases hne : t[n].slot = k
      · subst hne
        rw [if_pos rfl]
        rw [hadd, List.mem_append, List.mem_singleton] at hi
        rcases hi with hi | rfl
        · exact hw.held _ i hi
        · exact hv
      · rw [if_neg hne]
        rw [hkeep k hne] at hi
        exact hw.held k i hi
    · rw [hset]
      by_cases hne : t[n].slot = k
      · subst hne
        rw [if_pos rfl, hadd, rawSum_append]
        simp only [rawSum, BitVec.toNat_ofNat] at hs0 ⊢
        have := hw.num t[n].slot
        simp only [Fin.getElem_fin] at this ⊢
        rw [this]
        omega
      · rw [if_neg hne, hkeep k hne, hw.num k]

/-- What the descriptor loop over the first `n` indices does: it applies every descriptor, the prefix being consistent and every
active field taken; or it stops at the first descriptor that fails, for the reason reported, the descriptors below it being
consistent and taken. -/
theorem decodeFields_spec (t : Vector FDesc 32) (raw : Fin 32 → Except Reason Nat)
    (hraw : ∀ i v, raw i = .ok v → v < 2 ^ 24) (n : Nat) (hn : n ≤ 32) :
    (∃ w, decodeFields t raw (indicesBelow n) emptyWork = .ok w ∧ Decoded t (rawValue raw) n w ∧ tableConsistent t n ∧
      ∀ i : Fin 32, i.val < n → t[i].active = true → ∃ v, raw i = .ok v) ∨
    (∃ r i, decodeFields t raw (indicesBelow n) emptyWork = .error (r, i) ∧ i.val < n ∧ FieldFails t raw i r ∧
      tableConsistent t i.val ∧ ∀ j : Fin 32, j.val < i.val → t[j].active = true → ∃ v, raw j = .ok v) := by
  have hval : ∀ i, rawValue raw i < 2 ^ 24 := by
    intro i
    unfold rawValue
    split
    · rename_i v hv; exact hraw i v hv
    · decide
  induction n with
  | zero =>
    exact .inl ⟨emptyWork, rfl, decoded_zero t _, ⟨fun _ h => by omega, fun _ _ _ h => by omega, fun _ h => by omega⟩,
      fun _ h => by omega⟩
  | succ n ih =>
    have hn' : n < 32 := by omega
    rw [indicesBelow_succ n hn', decodeFields_append]
    rcases ih (by omega) with ⟨w, hw, hd, hc, hr⟩ | ⟨r, i, hw, hi, hf, hpre⟩
    · rw [hw]
      simp only [decodeFields, Fin.getElem_fin]
      by_cases ha : t[n].active = true
      · have fails : ∀ r, FieldFails t raw ⟨n, hn'⟩ r → decodeField t[n] (raw ⟨n, hn'⟩) w = .error r →
            (∃ r i, (match decodeField t[n] (raw ⟨n, hn'⟩) w with
              | .error reason => Except.error (reason, (⟨n, hn'⟩ : Fin 32))
              | .ok w' => Except.ok w') = .error (r, i) ∧ i.val < n + 1 ∧ FieldFails t raw i r ∧
              tableConsistent t i.val ∧ ∀ j : Fin 32, j.val < i.val → t[j].active = true → ∃ v, raw j = .ok v) := by
          intro r hf he
          exact ⟨r, ⟨n, hn'⟩, by rw [he], by simp, hf, hc, hr⟩
        by_cases hs : t[n].scale = 0#16
        · exact .inr (fails _ (.badScale ha hs) (by simp [decodeField, ha, hs]))
        · cases hv : raw ⟨n, hn'⟩ with
          | error r =>
            exact .inr (by rw [hv] at fails; exact fails r (.raw r ha hs hv) (by simp [decodeField, ha, hs]))
          | ok v =>
            have hvv : rawValue raw ⟨n, hn'⟩ = v := by simp [rawValue, hv]
            by_cases hkc : kindCheck t[n] w.slots[t[n].slot] = .none
            · left
              have step : decodeField t[n] (Except.ok v) w = .ok (applyField t[n] v w) := by
                simp only [decodeField, ha, hs, if_true, if_false]
                simp only [Fin.getElem_fin] at hkc ⊢
                rw [hkc]
              refine ⟨applyField t[n] v w, by rw [step], hvv ▸ decoded_apply hn' hd ha (fun i _ => hval i) hkc, ?_, ?_⟩
              · refine ⟨fun i hi hact => ?_, fun i j hij hj hsi hsj => ?_, fun j hj hcj => ?_⟩
                · rcases Nat.lt_succ_iff_lt_or_eq.1 hi with hlt | heq
                  · exact hc.scales i hlt hact
                  · have : i = ⟨n, hn'⟩ := Fin.ext heq
                    subst this; exact hs
                · rcases Nat.lt_succ_iff_lt_or_eq.1 hj with hlt | heq
                  · exact hc.simplesDiffer i j hij hlt hsi hsj
                  · have : j = ⟨n, hn'⟩ := Fin.ext heq
                    subst this
                    intro he
                    have hij' : i.val < n := hij
                    have hmem : i ∈ contributors t n t[n].slot := by
                      rw [mem_contributors]; exact ⟨hij', active_of_simple hsi, he⟩
                    have := (hd.held _ i hmem).1
                    have hsj' : t[n].kind = .simple := hsj
                    rw [kindCheck_simple hsj', if_pos this] at hkc
                    cases hkc
                · rcases Nat.lt_succ_iff_lt_or_eq.1 hj with hlt | heq
                  · exact hc.contsFollow j hlt hcj
                  · have : j = ⟨n, hn'⟩ := Fin.ext heq
                    subst this
                    have hcj' : t[n].kind = .cont := hcj
                    have hvd : w.slots[t[n].slot].valid = true ∧ w.slots[t[n].slot].den = t[n].scale := by
                      rw [kindCheck_cont hcj'] at hkc
                      split at hkc
                      · split at hkc
                        · exact ⟨by assumption, by assumption⟩
                        · cases hkc
                      · cases hkc
                    cases hcon : contributors t n t[n].slot with
                    | nil =>
                      have := hd.empty _ hcon
                      rw [this] at hvd
                      simp [Slot.empty] at hvd
                    | cons j l =>
                      obtain ⟨i, hi, hsi, he⟩ := exists_simple_of_consistent hc t[n].slot j (by simp [hcon])
                      refine ⟨i, hi, hsi, he, ?_⟩
                      have := (hd.held t[n].slot i (by rw [mem_contributors]; exact ⟨hi, active_of_simple hsi, he⟩)).2
                      exact this.symm.trans hvd.2
              · intro i hi hact
                rcases Nat.lt_succ_iff_lt_or_eq.1 hi with hlt | heq
                · exact hr i hlt hact
                · have : i = ⟨n, hn'⟩ := Fin.ext heq
                  subst this; exact ⟨v, hv⟩
            · right
              rw [hv] at fails
              have step : decodeField t[n] (Except.ok v) w = .error (kindCheck t[n] w.slots[t[n].slot]) := by
                simp only [decodeField, ha, hs, if_true, if_false]
              refine fails _ ?_ step
              rcases simple_or_cont_of_active ha with hk | hk
              · have hvalid : w.slots[t[n].slot].valid = true := by
                  by_contra hc
                  rw [kindCheck_simple hk, if_neg hc] at hkc
                  exact hkc rfl
                rw [kindCheck_simple hk, if_pos hvalid]
                cases hcon : contributors t n t[n].slot with
                | nil => rw [hd.empty _ hcon] at hvalid; simp [Slot.empty] at hvalid
                | cons j l =>
                  obtain ⟨i, hi, hsi, he⟩ := exists_simple_of_consistent hc t[n].slot j (by simp [hcon])
                  exact .duplicate ⟨hs, v, hv⟩ hk i hi hsi he
              · cases hcon : contributors t n t[n].slot with
                | nil =>
                  rw [kindCheck_cont hk, hd.empty _ hcon, if_neg (by simp [Slot.empty])]
                  refine .noPrior ⟨hs, v, hv⟩ hk (fun j hj hsj he => ?_)
                  have hj' : j.val < n := hj
                  have : j ∈ contributors t n t[n].slot := by
                    rw [mem_contributors]; exact ⟨hj', active_of_simple hsj, he⟩
                  rw [hcon] at this; cases this
                | cons j l =>
                  obtain ⟨i, hi, hsi, he⟩ := exists_simple_of_consistent hc t[n].slot j (by simp [hcon])
                  have hh := hd.held t[n].slot i (by rw [mem_contributors]; exact ⟨hi, active_of_simple hsi, he⟩)
                  have hne : w.slots[t[n].slot].den ≠ t[n].scale := by
                    intro heq
                    rw [kindCheck_cont hk, if_pos hh.1, if_pos heq] at hkc
                    exact hkc rfl
                  rw [kindCheck_cont hk, if_pos hh.1, if_neg hne]
                  exact .mismatch ⟨hs, v, hv⟩ hk i hi hsi he (fun h => hne (hh.2.trans h))
      · left
        have step : decodeField t[n] (raw ⟨n, hn'⟩) w = .ok w := by simp [decodeField, ha]
        have hcontr : ∀ k, contributors t (n + 1) k = contributors t n k := by
          intro k; rw [contributors_succ t n hn', if_neg (by simp [ha])]; simp
        refine ⟨w, by rw [step], ⟨?_, fun k hk => hd.empty k (by rwa [hcontr] at hk),
          fun k i hi => hd.held k i (by rwa [hcontr] at hi), fun k => by rw [hcontr]; exact hd.num k⟩, ?_, ?_⟩
        · rw [hd.applied, indicesBelow_succ n hn']; simp [ha]
        · refine ⟨fun i hi hact => ?_, fun i j hij hj hsi hsj => ?_, fun j hj hcj => ?_⟩
          · rcases Nat.lt_succ_iff_lt_or_eq.1 hi with hlt | heq
            · exact hc.scales i hlt hact
            · have : i = ⟨n, hn'⟩ := Fin.ext heq
              subst this; exact absurd hact ha
          · rcases Nat.lt_succ_iff_lt_or_eq.1 hj with hlt | heq
            · exact hc.simplesDiffer i j hij hlt hsi hsj
            · have : j = ⟨n, hn'⟩ := Fin.ext heq
              subst this; exact absurd (active_of_simple hsj) ha
          · rcases Nat.lt_succ_iff_lt_or_eq.1 hj with hlt | heq
            · exact hc.contsFollow j hlt hcj
            · have : j = ⟨n, hn'⟩ := Fin.ext heq
              subst this; exact absurd (active_of_cont hcj) ha
        · intro i hi hact
          rcases Nat.lt_succ_iff_lt_or_eq.1 hi with hlt | heq
          · exact hr i hlt hact
          · have : i = ⟨n, hn'⟩ := Fin.ext heq
            subst this; exact absurd hact ha
    · right
      rw [hw]
      exact ⟨r, i, rfl, by omega, hf, hpre⟩

/-- A failing descriptor contradicts consistency. -/
theorem FieldFails.not_consistent {t : Vector FDesc 32} {raw : Fin 32 → Except Reason Nat} {i : Fin 32} {r : Reason} {n : Nat}
    (h : FieldFails t raw i r) (hi : i.val < n) (hc : tableConsistent t n)
    (hr : t[i].active = true → ∃ v, raw i = .ok v) : False := by
  cases h with
  | badScale ha hs => exact hc.scales i hi ha hs
  | raw r ha hs he =>
    obtain ⟨v, hv⟩ := hr ha
    rw [he] at hv; cases hv
  | duplicate _ hk j hj hs he => exact hc.simplesDiffer j i hj hi hs hk he
  | noPrior _ hk h =>
    obtain ⟨j, hj, hs, he, -⟩ := hc.contsFollow i hi hk
    exact h j hj hs he
  | mismatch _ hk j hj hs he hd =>
    obtain ⟨j', hj', hs', he', hd'⟩ := hc.contsFollow i hi hk
    rcases lt_trichotomy j j' with h | h | h
    · have hj'v : j'.val < i.val := hj'
      exact hc.simplesDiffer j j' h (by omega) hs hs' (he.trans he'.symm)
    · subst h; exact hd hd'
    · have hjv : j.val < i.val := hj
      exact hc.simplesDiffer j' j h (by omega) hs' hs (he'.trans he.symm)

theorem be16_lt (hi lo : Byte) : be16 hi lo < 2 ^ 16 := by
  have := hi.isLt
  have := lo.isLt
  unfold be16
  omega

theorem leValue_lt (bs : List Byte) : leValue bs < 256 ^ bs.length := by
  induction bs with
  | nil => simp [leValue]
  | cons b bs ih =>
    have := b.isLt
    simp only [leValue, List.length_cons, pow_succ]
    omega

theorem mbRaw_bound (s : State) (i : Fin 32) (v : Nat) (h : mbRaw s i = .ok v) : v < 2 ^ 24 := by
  simp only [mbRaw, Except.ok.injEq] at h
  have := be16_lt (s.rxByte (s.parse.off.toNat + 2 * i.val)) (s.rxByte (s.parse.off.toNat + 2 * i.val + 1))
  omega

theorem vbRaw_bound (s : State) (i : Fin 32) (v : Nat) (h : vbRaw s i = .ok v) : v < 2 ^ 24 := by
  simp only [vbRaw] at h
  split at h
  · cases h
  · split at h
    · cases h
    · simp only [Except.ok.injEq] at h
      subst h
      refine (leValue_lt _).trans_le ?_
      rw [State.length_readBytes]
      have : s.fdesc[i].width.toNat ≤ 3 := by have := s.fdesc[i].width.isLt; omega
      calc 256 ^ _ ≤ 256 ^ 3 := Nat.pow_le_pow_right (by decide) this
        _ = 2 ^ 24 := by decide

end Sys2Proof.Machine
end

