-- ==== Sys2Proof/Laws/PerInstr.lean ====
section
/-! SUPPORT. The family CanonicalWord: the word the encoder writes for an operation is the word software should write
(30_encoding.md R90-R92): a legal OPC, every ignored bit 0. One lemma per constructor. -/

namespace Sys2Proof

/-- What the family says of an operation, as syntax. -/
def Laws.CanonicalWord.Statement (i : Instr) : Prop :=
  CommandWord.wellFormed (encode i) = true

/-- A command word's OPC byte. -/
theorem opc_commandWord (opc arg : Byte) : (commandWord opc arg).extractLsb' 0 8 = opc := by
  unfold commandWord
  apply BitVec.eq_of_getLsbD_eq
  intro k hk
  have h : k < 32 := by omega
  simp [hk, h]

/-- A command word's ARG byte. -/
theorem arg_commandWord (opc arg : Byte) : (commandWord opc arg).extractLsb' 8 8 = arg := by
  unfold commandWord
  apply BitVec.eq_of_getLsbD_eq
  intro k hk
  have h : 8 + k < 32 := by omega
  simp [hk, h]

/-- A command word's bits [31:16] are 0. -/
theorem high_commandWord (opc arg : Byte) : (commandWord opc arg).extractLsb' 16 16 = 0#16 := by
  unfold commandWord
  apply BitVec.eq_of_getLsbD_eq
  intro k hk
  have h : 16 + k < 32 := by omega
  simp [h]
  intro _
  exact ⟨BitVec.getLsbD_of_ge _ _ (by omega), fun _ => BitVec.getLsbD_of_ge _ _ (by omega)⟩

/-- A legal OPC with only used ARG bits makes a canonical word. -/
theorem wellFormed_commandWord {opc arg : Byte} (h : legalOpcodes.contains opc = true)
    (ha : arg &&& ~~~ usedArgBits opc = 0#8) : CommandWord.wellFormed (commandWord opc arg) = true := by
  simp only [CommandWord.wellFormed, opc_commandWord, arg_commandWord, high_commandWord, h, ha, Bool.true_and, beq_self_eq_true]

/-- The three Vendor-B operations use all eight bits of ARG. -/
theorem usedArgBits_vb {opc : Byte} (h : 0x20 ≤ opc.toNat ∧ opc.toNat ≤ 0x22) (c : Byte) :
    c &&& ~~~ usedArgBits opc = 0#8 := by
  rw [usedArgBits, if_neg (by omega), if_neg (by omega), if_pos h]
  simp

theorem Laws.CanonicalWord.nop : Laws.CanonicalWord.Statement .nop :=
  wellFormed_commandWord rfl rfl

theorem Laws.CanonicalWord.ckSum8 (sel : Sel) : Laws.CanonicalWord.Statement (.ckSum8 sel) := by
  cases sel <;> exact wellFormed_commandWord rfl rfl

theorem Laws.CanonicalWord.ckCheck8 (sel : Sel) : Laws.CanonicalWord.Statement (.ckCheck8 sel) := by
  cases sel <;> exact wellFormed_commandWord rfl rfl

theorem Laws.CanonicalWord.ckAppend8 (sel : Sel) : Laws.CanonicalWord.Statement (.ckAppend8 sel) := by
  cases sel <;> exact wellFormed_commandWord rfl rfl

theorem Laws.CanonicalWord.ckCrc16 (sel : Sel) : Laws.CanonicalWord.Statement (.ckCrc16 sel) := by
  cases sel <;> exact wellFormed_commandWord rfl rfl

theorem Laws.CanonicalWord.ckCheck16 (sel : Sel) : Laws.CanonicalWord.Statement (.ckCheck16 sel) := by
  cases sel <;> exact wellFormed_commandWord rfl rfl

theorem Laws.CanonicalWord.ckAppend16 (sel : Sel) : Laws.CanonicalWord.Statement (.ckAppend16 sel) := by
  cases sel <;> exact wellFormed_commandWord rfl rfl

theorem Laws.CanonicalWord.mbBuild : Laws.CanonicalWord.Statement .mbBuild :=
  wellFormed_commandWord rfl rfl

theorem Laws.CanonicalWord.mbParse : Laws.CanonicalWord.Statement .mbParse :=
  wellFormed_commandWord rfl rfl

theorem Laws.CanonicalWord.vbBuild (code : Byte) : Laws.CanonicalWord.Statement (.vbBuild code) :=
  wellFormed_commandWord (opc := 0x20#8) rfl (usedArgBits_vb (by decide) code)

theorem Laws.CanonicalWord.vbMinlen (code : Byte) : Laws.CanonicalWord.Statement (.vbMinlen code) :=
  wellFormed_commandWord (opc := 0x21#8) rfl (usedArgBits_vb (by decide) code)

theorem Laws.CanonicalWord.vbParse (code : Byte) : Laws.CanonicalWord.Statement (.vbParse code) :=
  wellFormed_commandWord (opc := 0x22#8) rfl (usedArgBits_vb (by decide) code)

theorem Laws.CanonicalWord.fdDecodeMb : Laws.CanonicalWord.Statement .fdDecodeMb :=
  wellFormed_commandWord rfl rfl

theorem Laws.CanonicalWord.fdDecodeVb : Laws.CanonicalWord.Statement .fdDecodeVb :=
  wellFormed_commandWord rfl rfl

theorem Laws.CanonicalWord.scClassMb : Laws.CanonicalWord.Statement .scClassMb :=
  wellFormed_commandWord rfl rfl

theorem Laws.CanonicalWord.scClassVb : Laws.CanonicalWord.Statement .scClassVb :=
  wellFormed_commandWord rfl rfl

end Sys2Proof
end

