-- ==== Sys2Proof/Laws/Step.lean ====
section
/-! SUPPORT. Once each: everything a step, a host move, a bus access and a completion can do. -/

namespace Sys2Proof.Machine

/-- Everything a step that answers a next state can be: the completion of a legal command, the completion of an illegal one, or
the host's turn. -/
theorem step_cases {s t : State} (h : step s = .next t) :
    (∃ p i, s.turn = .completion p ∧ decodeLatch p = .ok i ∧ exec i s = .next t) ∨
    (∃ p e, s.turn = .completion p ∧ decodeLatch p = .error e ∧ t = s.completeIllegal) ∨
    (s.turn = .host ∧ s.tick.hostTurn = .next t) := by
  unfold step at h
  split at h
  · rename_i p hp
    split at h
    · rename_i i hi; exact .inl ⟨p, i, hp, hi, h⟩
    · rename_i e he; cases h; exact .inr (.inl ⟨p, e, hp, he, rfl⟩)
  · rename_i hp; exact .inr (.inr ⟨hp, h⟩)

/-- The host's turn: no move to come, or the next move played on the state without it. -/
theorem hostTurn_cases {s t : State} (h : s.hostTurn = .next t) :
    (s.host = [] ∧ t = s) ∨ (∃ m rest, s.host = m :: rest ∧ ({ s with host := rest } : State).playMove m = .next t) := by
  unfold State.hostTurn at h
  split at h
  · rename_i hh; cases h; exact .inl ⟨hh, rfl⟩
  · rename_i m rest hh; exact .inr ⟨m, rest, hh, h⟩

/-- Everything a host move that answers a next state can be. -/
theorem playMove_cases {s t : State} {m : HostMove} (h : s.playMove m = .next t) :
    (m = .idle ∧ t = s) ∨
    (∃ off lanes into d r, m = .read off lanes into ∧ s.busRead off lanes = .ok (d, r) ∧
      t = { s with vars := insertAt s.vars into d, reply := some (.readData d r) }) ∨
    (∃ off lanes v d u r, m = .write off lanes v ∧ s.hostValue v = .ok d ∧ s.busWrite off lanes d = .ok (u, r) ∧
      t = { u with reply := some (.written r) }) ∨
    (m = .wait ∧ s.busy = true ∧ t = { s with reply := some (.readData s.statusWord .okay), host := .wait :: s.host }) ∨
    (m = .wait ∧ s.busy = false ∧ t = { s with reply := some (.readData s.statusWord .okay) }) ∨
    (m = .powerOn ∧ t = s.powerCycle) := by
  cases m with
  | idle => cases h; exact .inl ⟨rfl, rfl⟩
  | read off lanes into =>
    simp only [State.playMove] at h
    split at h
    · cases h
    · rename_i d r hr; cases h; exact .inr (.inl ⟨off, lanes, into, d, r, rfl, hr, rfl⟩)
  | write off lanes v =>
    simp only [State.playMove] at h
    split at h
    · cases h
    · rename_i d hd
      split at h
      · cases h
      · rename_i u r hu; cases h; exact .inr (.inr (.inl ⟨off, lanes, v, d, u, r, rfl, hd, hu, rfl⟩))
  | wait =>
    simp only [State.playMove] at h
    cases hb : s.busy with
    | true => rw [hb] at h; cases h; exact .inr (.inr (.inr (.inl ⟨rfl, rfl, rfl⟩)))
    | false => rw [hb] at h; cases h; exact .inr (.inr (.inr (.inr (.inl ⟨rfl, rfl, rfl⟩))))
  | powerOn => cases h; exact .inr (.inr (.inr (.inr (.inr ⟨rfl, rfl⟩))))

/-- Everything an access inside the window can reach. -/
theorem accessTarget_cases {off : Nat} {lanes : BitVec 4} {o : Option Reg} (h : accessTarget off lanes = .ok o) :
    off < 0x800 ∧ (o = none ∨ (off % 4 = 0 ∧ lanes = 0xF#4 ∧ ∃ r, o = some r ∧ regAt off = some r)) := by
  unfold accessTarget at h
  split at h
  · cases h
  · rename_i hw
    have hw' : off < 0x800 := by simpa [Config.windowBytes] using hw
    refine ⟨hw', ?_⟩
    split at h
    · rename_i hc
      cases h
      cases hr : regAt off with
      | none => exact .inl rfl
      | some r => exact .inr ⟨hc.1, hc.2, r, rfl, rfl⟩
    · cases h; exact .inl rfl

/-- Everything a bus write can do: ERROR and nothing, or OKAY and the register's write. -/
theorem busWrite_cases {s u : State} {off : Nat} {lanes : BitVec 4} {d : Word} {r : Resp}
    (h : s.busWrite off lanes d = .ok (u, r)) :
    off < 0x800 ∧ ((u = s ∧ r = .error) ∨
      (off % 4 = 0 ∧ lanes = 0xF#4 ∧ ∃ reg, regAt off = some reg ∧ u = s.writeReg d reg ∧ r = .okay)) := by
  unfold State.busWrite at h
  split at h
  · cases h
  · rename_i ht; cases h; exact ⟨(accessTarget_cases ht).1, .inl ⟨rfl, rfl⟩⟩
  · rename_i reg ht
    cases h
    obtain ⟨h1, h2 | ⟨h2, h3, r, h4, h5⟩⟩ := accessTarget_cases ht
    · cases h2
    · cases h4; exact ⟨h1, .inr ⟨h2, h3, reg, h5, rfl, rfl⟩⟩

/-- An access with all lanes at an aligned offset inside the window reaches what the offset names. -/
theorem accessTarget_aligned {off : Nat} (h1 : off < 0x800) (h2 : off % 4 = 0) : accessTarget off 0xF#4 = .ok (regAt off) := by
  unfold accessTarget
  rw [if_neg (by simp [Config.windowBytes]; omega), if_pos ⟨h2, rfl⟩]

theorem busWrite_aligned {s : State} {off : Nat} {d : Word} {r : Reg} (h1 : off < 0x800) (h2 : off % 4 = 0)
    (h3 : regAt off = some r) : s.busWrite off 0xF#4 d = .ok (s.writeReg d r, .okay) := by
  simp [State.busWrite, accessTarget_aligned h1 h2, h3]

theorem busRead_aligned {s : State} {off : Nat} {r : Reg} (h1 : off < 0x800) (h2 : off % 4 = 0)
    (h3 : regAt off = some r) : s.busRead off 0xF#4 = .ok (s.readReg r, .okay) := by
  simp [State.busRead, accessTarget_aligned h1 h2, h3]

theorem busy_of_running {s : State} {p : Half} {left : Nat} (h : s.engine = .running p left) : s.busy = true := by
  simp [State.busy, h]

theorem busy_of_idle {s : State} (h : s.engine = .idle) : s.busy = false := by
  simp [State.busy, h]

/-- Everything MB_PARSE can do: fail with an error, or latch the frame whose trailer it checked. -/
theorem execMbParse_cases (s : State) :
    (∃ e r, e ≠ .none ∧ execMbParse s = .next (s.failParse e r)) ∨
    (3 ≤ s.rxlen.val ∧ 3 + (s.rxByte 2).toNat + trailerLen s.mbck ≤ s.rxlen.val ∧
      s.readBytes (Config.rxBase + (3 + (s.rxByte 2).toNat)) (trailerLen s.mbck) =
        trailerBytes s.mbck (s.readBytes Config.rxBase (3 + (s.rxByte 2).toNat)) ∧
      execMbParse s = .next ((s.setParse
        (mbParseRegs s (s.rxByte 2).toNat (3 + (s.rxByte 2).toNat + trailerLen s.mbck)) .modbus).finish .none true
        (trailerValue s.mbck (s.readBytes Config.rxBase (3 + (s.rxByte 2).toNat))))) := by
  unfold execMbParse
  simp only [Nat.add_sub_cancel]
  split
  · exact .inl ⟨_, _, by decide, rfl⟩
  split
  · exact .inl ⟨_, _, by decide, rfl⟩
  split
  · exact .inl ⟨_, _, by decide, rfl⟩
  split
  · rename_i h1 h2 h3 h4
    exact .inr ⟨by omega, by omega, by simpa using h4, rfl⟩
  · exact .inl ⟨_, _, by decide, rfl⟩

/-- Everything VB_PARSE can do: fail with an error, or latch the frame whose checksum it checked. -/
theorem execVbParse_cases (c : Byte) (s : State) :
    (∃ e r, e ≠ .none ∧ execVbParse c s = .next (s.failParse e r)) ∨
    (6 ≤ s.rxlen.val ∧ s.rxByte (s.rxlen.val - 1) = add8 (s.readBytes Config.rxBase (s.rxlen.val - 1)) ∧
      execVbParse c s = .next ((s.setParse (vbParseRegs s s.rxlen.val) .vendorB).finish .none true
        ((add8 (s.readBytes Config.rxBase (s.rxlen.val - 1))).setWidth 32))) := by
  unfold execVbParse
  simp only []
  split
  · exact .inl ⟨_, _, by decide, rfl⟩
  split
  · exact .inl ⟨_, _, by decide, rfl⟩
  split
  · rename_i h1 h2 h3
    have : 6 ≤ s.vbBound c := Nat.le_max_right _ _
    exact .inr ⟨by omega, h3, rfl⟩
  · exact .inl ⟨_, _, by decide, rfl⟩

/-- Everything CK_APPEND8 and CK_APPEND16 can do: overflow, or an append of one or two bytes that fit. -/
theorem execCkAppend8_cases (sel : Sel) (s : State) :
    ((s.selLen sel).val = 512 ∧ execCkAppend8 sel s = .next (s.raise .bufferOverflow)) ∨
    ((s.selLen sel).val < 512 ∧ execCkAppend8 sel s = .next
      ((s.append sel [add8 (s.selBytes sel (s.selLen sel).val)]).finish .none true
        ((add8 (s.selBytes sel (s.selLen sel).val)).setWidth 32))) := by
  have := (s.selLen sel).isLt
  by_cases h : (s.selLen sel).val = 512
  · exact .inl ⟨h, by simp [execCkAppend8, Config.bufBytes, h]⟩
  · exact .inr ⟨by omega, by simp [execCkAppend8, Config.bufBytes, h]⟩

theorem execCkAppend16_cases (sel : Sel) (s : State) :
    (511 ≤ (s.selLen sel).val ∧ execCkAppend16 sel s = .next (s.raise .bufferOverflow)) ∨
    ((s.selLen sel).val ≤ 510 ∧ execCkAppend16 sel s = .next
      ((s.append sel (crcTrailer (crc16 (s.selBytes sel (s.selLen sel).val)))).finish .none true
        ((crc16 (s.selBytes sel (s.selLen sel).val)).setWidth 32))) := by
  by_cases h : 510 < (s.selLen sel).val
  · exact .inl ⟨by omega, by simp [execCkAppend16, Config.bufBytes, h]⟩
  · exact .inr ⟨by omega, by simp [execCkAppend16, Config.bufBytes, h]⟩

/-- The bytes after an append: the appended ones at the old length, every other as before. -/
theorem State.byteAt_append (s : State) (sel : Sel) (bs : List Byte) (a : Nat) :
    (s.append sel bs).byteAt a =
      if h : selBase sel + (s.selLen sel).val ≤ a ∧ a < selBase sel + (s.selLen sel).val + bs.length then
        bs[a - (selBase sel + (s.selLen sel).val)] else s.byteAt a := by
  rw [← State.byteAt_writeBytes]
  apply State.byteAt_congr <;> simp

theorem State.selLen_append (s : State) (sel : Sel) (bs : List Byte) :
    (s.append sel bs).selLen sel = clampLen ((s.selLen sel).val + bs.length) := by
  cases sel <;> rfl

/-- The bytes after a build: the frame from TXB[0] on, every other byte as before. -/
theorem State.byteAt_putFrame (s : State) (bs : List Byte) (a : Nat) :
    (s.putFrame bs).byteAt a =
      if h : Config.txBase ≤ a ∧ a < Config.txBase + bs.length then bs[a - Config.txBase] else s.byteAt a := by
  rw [← State.byteAt_writeBytes]
  apply State.byteAt_congr <;> rfl

@[simp] theorem State.byteAt_finish (s : State) (e : Err) (b : Bool) (w : Word) (a : Nat) :
    (s.finish e b w).byteAt a = s.byteAt a := rfl

theorem length_crcTrailer (c : Half) : (crcTrailer c).length = 2 := rfl

theorem length_trailerBytes (m : Bool) (bs : List Byte) : (trailerBytes m bs).length = trailerLen m := by
  cases m <;> rfl

end Sys2Proof.Machine
end

