-- ==== Sys2Proof/Tests/Slice0.lean ====
section
/-! SUPPORT. Small tests: ill-formed terms that the checks refuse, command words written out from the spec's encoding, single
completions with the results of 95_test_vectors.md, and for every obligation with hypotheses a state that meets them. -/

namespace Sys2Proof.Tests

open Sys2Proof Sys2Proof.Machine

/-! ### Helpers -/

/-- After reset, with these bytes in RXB and RXLEN their number. -/
def withRx (bs : List Byte) : State :=
  { State.reset with mem := writeCells [] Config.rxBase bs, rxlen := clampLen bs.length }

/-- After reset, with these bytes in TXB and TXLEN their number. -/
def withTx (bs : List Byte) : State :=
  { State.reset with mem := writeCells [] Config.txBase bs, txlen := clampLen bs.length }

/-- The state one completion leaves. -/
def after (i : Instr) (s : State) : State :=
  match exec i s with
  | .next t => t
  | .fault _ => s
  | .refused _ => s

/-- Whether one completion answers a next state. -/
def answersNext (i : Instr) (s : State) : Bool :=
  match exec i s with
  | .next _ => true
  | .fault _ => false
  | .refused _ => false

theorem exec_after {i : Instr} {s : State} (h : answersNext i s = true) : exec i s = .next (after i s) := by
  unfold answersNext at h
  unfold after
  split at h
  · assumption
  · cases h
  · cases h

/-- The fault a step ends in, if any. -/
def stepFault (s : State) : Option Fault :=
  match step s with
  | .fault f => some f
  | .next _ => none
  | .refused _ => none

/-- STATUS and RESULT after one completion. -/
def codes (i : Instr) (s : State) : Word × Word :=
  ((after i s).statusWord, (after i s).result)

/-- The first `n` bytes of TXB and TXLEN after one completion. -/
def built (i : Instr) (n : Nat) (s : State) : List Byte × Nat :=
  ((after i s).readBytes Config.txBase n, (after i s).txlen.val)

/-- The source's worked frame (95_test_vectors.md L1-6). -/
def sourceFrame : List Byte :=
  [0xFF#8, 0x03#8, 0x02#8, 0x00#8, 0x02#8, 0x10#8, 0x51#8]

/-- The Vendor-B frame of vector V11. -/
def vendorFrame : List Byte :=
  [0x11#8, 0x00#8, 0x00#8, 0x00#8, 0x5A#8, 0x34#8, 0x12#8, 0x07#8, 0xB8#8]

/-- The table with these (CTL, SCALE) words in its first entries. -/
def fdescOf (ws : List (Word × Word)) : Vector FDesc 32 :=
  Vector.ofFn fun i =>
    match ws[i.val]? with
    | some (ctl, scale) => fdescWithScale (fdescWithCtl resetFDesc ctl) scale
    | none => resetFDesc

/-- The command table with these words in its first entries. -/
def cmdtOf (ws : List Word) : Vector CmdEntry 16 :=
  Vector.ofFn fun j =>
    match ws[j.val]? with
    | some w => cmdtOfWord w
    | none => resetCmdEntry

/-- A Modbus-style payload of up to 60 bytes latched, as MB_PARSE leaves it (MBCK = 0). -/
def mbLatched (payload : List Byte) (ws : List (Word × Word)) : State :=
  let body := [0x01#8, 0x03#8, BitVec.ofNat 8 payload.length] ++ payload
  { after .mbParse { withRx (body ++ [add8 body]) with mbck := false } with fdesc := fdescOf ws }

/-- A Vendor-B payload latched, as VB_PARSE leaves it. -/
def vbLatched (data : List Byte) (ws : List (Word × Word)) : State :=
  let body := [0x11#8, 0x00#8, 0x00#8, 0x00#8, 0x5A#8] ++ data
  { after (.vbParse 0x5A#8) (withRx (body ++ [add8 body])) with fdesc := fdescOf ws }

/-- FV_VALID, and slot 0's FV_NUM and FV_DEN. -/
def sample (s : State) : Word × Word × Half :=
  (s.fvValidWord, s.slots[(0 : Fin 32)].num, s.slots[(0 : Fin 32)].den)

/-- A state in which an MB_PARSE is in flight with `left` turns to go. -/
def inFlight (left : Nat) (moves : List HostMove) : State :=
  { State.reset with cmd := 0x0011#16, engine := .running 0x0011#16 left, host := moves }

/-! ### Well-formedness: each check refuses an ill-formed term -/

theorem test_canonical_word_is_wellFormed :
    CommandWord.wellFormed 0x00005A22#32 = true ∧ CommandWord.wellFormed 0x00000102#32 = true := by decide

theorem test_illegal_opcode_is_illFormed : CommandWord.wellFormed 0x0000127F#32 = false := by decide

theorem test_ignored_arg_bit_is_illFormed :
    CommandWord.wellFormed 0x00000202#32 = false ∧ CommandWord.wellFormed 0x00000110#32 = false := by decide

theorem test_high_bits_are_illFormed : CommandWord.wellFormed 0xABCD0000#32 = false := by decide

theorem test_access_legal : legalAccess 0x7FC 0xF#4 = true := by decide

theorem test_access_misaligned : legalAccess 0x402 0xF#4 = false := by decide

theorem test_access_partial_lanes : legalAccess 0x400 0x1#4 = false := by decide

theorem test_access_outside : legalAccess 0x800 0xF#4 = false := by decide

theorem test_move_outside_window :
    HostMove.insideWindow (.read 0x800 0xF#4 0) = false ∧ HostMove.insideWindow (.write 0x800 0xF#4 (.lit 0#32)) = false ∧
    HostMove.insideWindow (.read 0x7FC 0xF#4 0) = true := by decide

theorem test_move_unset_variable :
    HostMove.varsIn [1] (.write 0x060 0xF#4 (.var 2)) = false ∧
    HostMove.varsIn [1] (.write 0x060 0xF#4 (.merge 2 1#4 0#32)) = false ∧
    HostMove.varsIn [1] (.write 0x060 0xF#4 (.var 1)) = true := by decide

theorem test_program_uses_variable_before_read :
    movesSound [] [hostWrVar 0x060 7] = false ∧ movesSound [] [hostRd 0x104 7, hostWrVar 0x060 7] = true := by decide

theorem test_table_zero_scale : ¬ tableConsistent (fdescOf [(0x1#32, 0#32)]) 1 :=
  fun h => h.scales 0 (by decide) (by decide) (by decide)

theorem test_table_two_simples : ¬ tableConsistent (fdescOf [(0x1#32, 10#32), (0x1#32, 10#32)]) 2 :=
  fun h => h.simplesDiffer 0 1 (by decide) (by decide) (by decide) (by decide) (by decide)

theorem test_table_cont_first : ¬ tableConsistent (fdescOf [(0x2#32, 10#32)]) 1 := fun h => by
  obtain ⟨i, hi, -⟩ := h.contsFollow 0 (by decide) (by decide)
  exact absurd hi (by omega)

theorem test_fields_zero_width : ¬ fieldsWithin (fdescOf [(0x1#32, 1#32)]) 3 :=
  fun h => (h 0 (by decide)).1 (by decide)

theorem test_fields_out_of_range : ¬ fieldsWithin (fdescOf [(0x00020009#32, 1#32)]) 3 :=
  fun h => absurd (h 0 (by decide)).2 (by decide)

theorem test_memory_form :
    Memory.wf [(0x400, 1#8), (0x7FF, 2#8)] = true ∧ Memory.wf [(0x401, 1#8), (0x400, 2#8)] = false ∧
    Memory.wf [(0x3FF, 1#8)] = false ∧ Memory.wf [(0x800, 1#8)] = false := by decide

/-! ### Decoding: words written out from 30_encoding.md R90-R92 (bits [31:16], ARG, OPC) -/

/-- A command word field by field. -/
def fieldsWord (high : Half) (arg opc : Byte) : Word :=
  high ++ arg ++ opc

theorem test_decode_nop : decodeCommand (fieldsWord 0xABCD#16 0b11111111#8 0b00000000#8) = .ok .nop := by decide

theorem test_decode_ckSum8 : decodeCommand (fieldsWord 0#16 0b00000001#8 0b00000001#8) = .ok (.ckSum8 .txb) := by decide

theorem test_decode_ckCheck8 : decodeCommand (fieldsWord 0#16 0b11111110#8 0b00000010#8) = .ok (.ckCheck8 .rxb) := by decide

theorem test_decode_ckAppend8 : decodeCommand (fieldsWord 0#16 0b00000001#8 0b00000011#8) = .ok (.ckAppend8 .txb) := by decide

theorem test_decode_ckCrc16 : decodeCommand (fieldsWord 0#16 0b00000000#8 0b00000100#8) = .ok (.ckCrc16 .rxb) := by decide

theorem test_decode_ckCheck16 : decodeCommand (fieldsWord 0#16 0b00000011#8 0b00000101#8) = .ok (.ckCheck16 .txb) := by decide

theorem test_decode_ckAppend16 : decodeCommand (fieldsWord 0#16 0b00000000#8 0b00000110#8) = .ok (.ckAppend16 .rxb) := by decide

theorem test_decode_mbBuild : decodeCommand (fieldsWord 0#16 0b00000000#8 0b00010000#8) = .ok .mbBuild := by decide

theorem test_decode_mbParse : decodeCommand (fieldsWord 0#16 0b00000001#8 0b00010001#8) = .ok .mbParse := by decide

theorem test_decode_vbBuild : decodeCommand (fieldsWord 0#16 0b11111111#8 0b00100000#8) = .ok (.vbBuild 0xFF#8) := by decide

theorem test_decode_vbMinlen : decodeCommand (fieldsWord 0#16 0b01110111#8 0b00100001#8) = .ok (.vbMinlen 0x77#8) := by decide

theorem test_decode_vbParse : decodeCommand (fieldsWord 0#16 0b01011010#8 0b00100010#8) = .ok (.vbParse 0x5A#8) := by decide

theorem test_decode_fdDecodeMb : decodeCommand (fieldsWord 0#16 0b00000000#8 0b00110000#8) = .ok .fdDecodeMb := by decide

theorem test_decode_fdDecodeVb : decodeCommand (fieldsWord 0#16 0b00000000#8 0b00110001#8) = .ok .fdDecodeVb := by decide

theorem test_decode_scClassMb : decodeCommand (fieldsWord 0#16 0b00000000#8 0b01000000#8) = .ok .scClassMb := by decide

theorem test_decode_scClassVb : decodeCommand (fieldsWord 0#16 0b00000000#8 0b01000001#8) = .ok .scClassVb := by decide

theorem test_decode_illegal : decodeCommand 0x0000127F#32 = .error (.illegalOpcode 0x7F#8) := by decide

theorem test_decode_bytes : decodeBytes [0x22#8, 0x5A#8, 0x00#8, 0x00#8, 0x99#8] = .ok (.vbParse 0x5A#8, [0x99#8]) := by decide

theorem test_decode_bytes_truncated : decodeBytes [0x22#8, 0x5A#8] = .error (.truncated 2) := by decide

theorem test_decode_table_word :
    decodeTableWord 32 0x00005A22 = some (.vbParse 0x5A#8) ∧ decodeTableWord 8 0x22 = some (.vbParse 0#8) ∧
    decodeTableWord 8 0x7F = none := by decide

/-- No two rows of the opcode map share an OPC value, and the map has the sixteen of R91. -/
theorem test_opcode_rows_differ : opcodeMap.map (·.opc) = legalOpcodes ∧ legalOpcodes.Nodup := by decide

/-! ### One completion each, from 95_test_vectors.md -/

/-- N1 -/
theorem test_nop : codes .nop State.reset = (0x22#32, 0#32) := by decide

/-- K3 -/
theorem test_ckSum8_wraps : codes (.ckSum8 .rxb) (withRx [0xFF#8, 0x01#8, 0x33#8]) = (0x22#32, 0#32) := by decide

/-- K4 -/
theorem test_ckSum8 : codes (.ckSum8 .rxb) (withRx [1#8, 2#8, 3#8, 4#8]) = (0x22#32, 0x06#32) := by decide

/-- K9 -/
theorem test_ckCheck8_mismatch :
    codes (.ckCheck8 .rxb) (withRx [1#8, 2#8, 3#8, 4#8, 0x0B#8]) = (0x02#32, 0x0A#32) := by decide

/-- K5 -/
theorem test_ckCheck8_empty : codes (.ckCheck8 .rxb) State.reset = (0x142#32, 0#32) := by decide

/-- K10 -/
theorem test_ckAppend8 :
    built (.ckAppend8 .txb) 5 (withTx [1#8, 2#8, 3#8, 4#8]) = ([1#8, 2#8, 3#8, 4#8, 0x0A#8], 5) := by decide

/-- K12 -/
theorem test_ckAppend8_full : codes (.ckAppend8 .rxb) { State.reset with rxlen := 512 } = (0x802#32, 0#32) := by decide

/-- K17 -/
theorem test_ckCrc16_check_value :
    codes (.ckCrc16 .txb) (withTx [0x31#8, 0x32#8, 0x33#8, 0x34#8, 0x35#8, 0x36#8, 0x37#8, 0x38#8, 0x39#8, 0#8, 0#8]) =
      (0x22#32, 0x4B37#32) := by decide +kernel

/-- K15 -/
theorem test_ckCrc16_short : codes (.ckCrc16 .rxb) (withRx [0xAA#8]) = (0x22#32, 0xFFFF#32) := by decide

/-- K22 -/
theorem test_ckCheck16_swapped :
    codes (.ckCheck16 .rxb) (withRx [0xFF#8, 0x03#8, 0x02#8, 0x00#8, 0x02#8, 0x51#8, 0x10#8]) = (0x02#32, 0x5110#32) := by
  decide +kernel

/-- K19 -/
theorem test_ckCheck16_incomplete : codes (.ckCheck16 .rxb) (withRx [0xFF#8]) = (0x242#32, 0#32) := by decide

/-- K23 -/
theorem test_ckAppend16 :
    built (.ckAppend16 .txb) 7 (withTx [0xFF#8, 0x03#8, 0x02#8, 0x00#8, 0x02#8]) = (sourceFrame, 7) := by decide +kernel

/-- K25 -/
theorem test_ckAppend16_full : codes (.ckAppend16 .rxb) { State.reset with rxlen := 511 } = (0x802#32, 0#32) := by
  decide

/-- M7 -/
theorem test_mbBuild_crc16 :
    built .mbBuild 8 { State.reset with mbSlave := 0x11#8, mbFunc := 0x04#8, mbStart := 0x1000#16, mbCount := 0x0010#16 } =
      ([0x11#8, 0x04#8, 0x10#8, 0x00#8, 0x00#8, 0x10#8, 0xF7#8, 0x96#8], 8) := by decide +kernel

/-- M2 -/
theorem test_mbBuild_add8 :
    built .mbBuild 7
      { State.reset with mbck := false, mbSlave := 0x01#8, mbFunc := 0x03#8, mbStart := 0x000A#16, mbCount := 0x0002#16 } =
      ([0x01#8, 0x03#8, 0x00#8, 0x0A#8, 0x00#8, 0x02#8, 0x10#8], 7) := by decide

/-- M15: two excess bytes are ignored. -/
theorem test_mbParse_excess :
    (after .mbParse (withRx (sourceFrame ++ [0xAA#8, 0xBB#8]))).parse = ⟨0xFF#16, 0x03#8, 0#16, 2#10, 3#10, 2#10, 7#10⟩ ∧
    codes .mbParse (withRx (sourceFrame ++ [0xAA#8, 0xBB#8])) = (0x22#32, 0x5110#32) := by decide +kernel

/-- M14 -/
theorem test_mbParse_mismatch :
    codes .mbParse (withRx [0xFF#8, 0x03#8, 0x02#8, 0x00#8, 0x02#8, 0x10#8, 0x50#8]) = (0x442#32, 0x5110#32) := by
  decide +kernel

/-- V2 -/
theorem test_vbBuild_filler :
    built (.vbBuild 0x5A#8) 9 { State.reset with vbDest := 0x0011#16, cmdt := cmdtOf [0x8010095A#32] } =
      ([0x11#8, 0x00#8, 0x00#8, 0x00#8, 0x5A#8, 0x10#8, 0x00#8, 0x00#8, 0x7B#8], 9) := by decide

/-- V3 -/
theorem test_vbBuild_no_entry :
    built (.vbBuild 0x5B#8) 9
      { State.reset with vbDest := 0xBEEF#16, vbSrc := 0x1234#16, cmdt := cmdtOf [0x8010095A#32] } =
      ([0xEF#8, 0xBE#8, 0x34#8, 0x12#8, 0x5B#8, 0x00#8, 0x00#8, 0x00#8, 0x4E#8], 9) := by decide

/-- V9b: the lowest index wins. -/
theorem test_vbMinlen_lowest_index :
    codes (.vbMinlen 0x5A#8) { State.reset with cmdt := cmdtOf [0x8000085A#32, 0x8000095A#32] } = (0x22#32, 8#32) := by
  decide

/-- V9 and L1-10: no entry. -/
theorem test_vbMinlen_default :
    codes (.vbMinlen 0x77#8) { State.reset with cmdt := cmdtOf [0x8000095A#32] } = (0x22#32, 1#32) := by decide

/-- V11 -/
theorem test_vbParse :
    (after (.vbParse 0x5A#8) { withRx vendorFrame with cmdt := cmdtOf [0x8000095A#32] }).parse =
      ⟨0x0011#16, 0x5A#8, 0#16, 3#10, 5#10, 3#10, 9#10⟩ ∧
    codes (.vbParse 0x5A#8) { withRx vendorFrame with cmdt := cmdtOf [0x8000095A#32] } = (0x22#32, 0xB8#32) := by
  decide

/-- V14: the structural minimum of 6. -/
theorem test_vbParse_structural_minimum :
    codes (.vbParse 0x5A#8) (withRx [0x11#8, 0x00#8, 0x00#8, 0x00#8, 0x5A#8]) = (0x342#32, 0#32) := by decide

/-- F2 -/
theorem test_fdDecodeMb_continuation :
    sample (after .fdDecodeMb (mbLatched [0x00#8, 0x64#8, 0x00#8, 0x05#8] [(0x1#32, 10#32), (0x2#32, 10#32)])) =
      (0x1#32, 105#32, 10#16) := by decide

/-- F7 -/
theorem test_fdDecodeMb_scale_mismatch :
    decInfoWord (after .fdDecodeMb
      (mbLatched [0x00#8, 0x64#8, 0x00#8, 0x05#8] [(0x1#32, 10#32), (0x2#32, 100#32)])).decInfo = 0x00000103#32 := by
  decide

/-- G1 -/
theorem test_fdDecodeVb :
    sample (after .fdDecodeVb (vbLatched [0x34#8, 0x12#8, 0x07#8] [(0x00000009#32, 10#32), (0x00020015#32, 1#32)])) =
      (0x3#32, 4660#32, 10#16) := by decide

/-- G5 -/
theorem test_fdDecodeVb_out_of_range :
    decInfoWord (after .fdDecodeVb (vbLatched [0x34#8, 0x12#8, 0x07#8] [(0x00020009#32, 1#32)])).decInfo = 0x00000004#32 := by
  decide

/-- S3 -/
theorem test_scClassMb_unknown : codes .scClassMb { State.reset with scIn := 2#32 } = (0x22#32, 0xFF#32) := by decide

/-- S1 -/
theorem test_scClassMb_zero : codes .scClassMb State.reset = (0x22#32, 0x01#32) := by decide

/-- S10: the lowest k wins. -/
theorem test_scClassVb_first_match : codes .scClassVb { State.reset with scIn := 0x300#32 } = (0x22#32, 0x18#32) := by
  decide

/-- S14 -/
theorem test_scClassVb_unknown : codes .scClassVb { State.reset with scIn := 0x1000#32 } = (0x22#32, 0xFF#32) := by
  decide

/-! ### The step and the bus -/

/-- N3: an illegal OPC completes with STATUS 0x602. -/
theorem test_step_illegal_opcode :
    (match step (State.reset.withFetchWord 32 0x0000127F) with
      | .next t => some (t.statusWord, t.cmd)
      | _ => none) = some (0x602#32, 0x127F#16) := by decide

/-- The placed command is the one that runs. -/
theorem test_step_runs_placed_command :
    step (State.reset.withFetchWord 32 0x40) = exec .scClassMb (State.reset.withFetchWord 32 0x40) := rfl

/-- N9 -/
theorem test_write_rxlen :
    lenOfData 0x3FF#32 = 512 ∧ lenOfData 0x1234#32 = 512 ∧ lenOfData 0x401#32 = 1 := by decide

/-- N10 -/
theorem test_write_rxb_word :
    (match State.reset.busWrite 0x400 0xF#4 0x44332211#32 with
      | .ok (t, _) => t.readBytes Config.rxBase 4
      | .error _ => []) = [0x11#8, 0x22#8, 0x33#8, 0x44#8] := by decide

/-- N12: an access at 0x402, and a byte-wide one. -/
theorem test_bus_error :
    State.reset.busRead 0x402 0xF#4 = .ok (0#32, .error) ∧ State.reset.busRead 0x400 0x1#4 = .ok (0#32, .error) := by
  decide

/-- N13 -/
theorem test_write_id : State.reset.busWrite 0x000 0xF#4 0#32 = .ok (State.reset, .okay) := by decide

/-- N14: SRST wins over the other bits of the write. -/
theorem test_soft_reset :
    (match (withRx sourceFrame).busWrite 0x004 0xF#4 0x00000007#32 with
      | .ok (t, _) => some (t.ctrlWord, t.statusWord, t.rxlen.val, t.readBytes Config.rxBase 7)
      | .error _ => none) = some (0x2#32, 0#32, 0, sourceFrame) := by decide

/-- A host access outside the window has no meaning. -/
theorem test_outside_window : stepFault { State.reset with host := [hostRd 0x800 0] } = some (.outsideWindow 0x800) := by
  decide

/-- A host variable that no read has set has no value. -/
theorem test_unset_variable : stepFault { State.reset with host := [hostWrVar 0x060 3] } = some (.unsetVariable 3) := by
  decide

/-- `wrbytes TXB, 1, 03` (program L3-3): one word, lane 1. -/
theorem test_wrbytes_moves :
    hostWrBytes .txb 9 1 [0x03#8] = [hostRd 0x600 9, .write 0x600 0xF#4 (.merge 9 0x2#4 0x00000300#32)] := by decide

/-- Indices past the buffer's end are in no word of it: `wrbytes RXB, 510, 01 02 03 04` writes the last word's lanes 2 and 3. -/
theorem test_wrbytes_end_of_buffer :
    hostWrBytes .rxb 9 510 [0x01#8, 0x02#8, 0x03#8, 0x04#8] =
      [hostRd 0x5FC 9, .write 0x5FC 0xF#4 (.merge 9 0xC#4 0x02010000#32)] := by decide +kernel

/-- A read of DEC_INFO places REASON, INDEX, ODD and TRUNC (F7's value with R41's ODD and TRUNC bits). -/
theorem test_read_decInfo : decInfoWord ⟨.scaleMismatch, 1#5, true, true⟩ = 0x00030103#32 := by decide

/-! ### Witnesses: a state and operands that meet the hypotheses of each statement -/

theorem test_witness_DecodeAndEncodeAgree :
    (0xABCDFF02#32).extractLsb' 0 8 = opcOf (.ckCheck8 .txb) ∧
    (0xABCDFF02#32).extractLsb' 8 8 &&& usedArgBits (opcOf (.ckCheck8 .txb)) = argOf (.ckCheck8 .txb) ∧
    CommandWord.wellFormed 0x00005A22#32 = true := by decide

theorem test_witness_ExactlySixteenOpcodesAreLegal :
    (0x0000127F#32).extractLsb' 0 8 ∉ legalOpcodes ∧ (0x000000FF#32).extractLsb' 0 8 ∉ legalOpcodes ∧
    (0x00000041#32).extractLsb' 0 8 ∈ legalOpcodes := by decide

theorem test_witness_StepRunsTheDecodedOperation :
    (inFlight 1 []).engine = .running 0x0011#16 1 ∧ decodeLatch 0x0011#16 = .ok .mbParse ∧
    decodeTableWord 32 0x00005A22 = some (.vbParse 0x5A#8) := by decide

theorem test_witness_OtherTurnsAreTheHosts :
    State.reset.engine = .idle ∧ (inFlight 2 []).engine = .running 0x0011#16 2 ∧ (inFlight 2 []).host = [] := by decide

theorem test_witness_IllegalOpcodeIsAcceptedAndCompletes :
    (0x0000127F#32).extractLsb' 0 8 ∉ legalOpcodes ∧ State.reset.engine = .idle ∧
    (State.reset.withCommand 0x127F#16).engine = .running ((0x0000127F#32).setWidth 16) 1 := by decide

theorem test_witness_ErrorsAreRaisedOnlyAsListed :
    exec .mbParse State.reset = .next (after .mbParse State.reset) ∧ (after .mbParse State.reset).err ≠ .none :=
  ⟨exec_after (by decide), by decide⟩

/-- Lengths 0, 1 and 2, where the clauses meet. -/
theorem test_witness_CkCheck8_and_CkCheck16_lengths :
    (State.reset.selLen .rxb).val = 0 ∧ ((withRx [0xFF#8]).selLen .rxb).val = 1 ∧
    ((withRx [0xFF#8, 0xFF#8]).selLen .rxb).val = 2 := by decide

/-- Lengths 510, 511 and 512, where the clauses meet. -/
theorem test_witness_CkAppend_lengths :
    (({ State.reset with rxlen := 510 } : State).selLen .rxb).val ≤ 510 ∧
    511 ≤ (({ State.reset with txlen := 511 } : State).selLen .txb).val ∧
    (({ State.reset with txlen := 511 } : State).selLen .txb).val ≠ 512 ∧
    (({ State.reset with rxlen := 512 } : State).selLen .rxb).val = 512 := by decide

theorem test_witness_CkSum8_and_CkCrc16_short :
    (State.reset.selLen .rxb).val ≤ 1 ∧ ((withRx [0x55#8]).selLen .rxb).val ≤ 1 ∧
    ((withRx [0x55#8, 0x55#8]).selLen .rxb).val ≤ 2 := by decide

theorem test_witness_AppendThenCheckIsValid :
    exec (.ckAppend8 .txb) (withTx [1#8, 2#8, 3#8, 4#8]) = .next (after (.ckAppend8 .txb) (withTx [1#8, 2#8, 3#8, 4#8])) ∧
    (after (.ckAppend8 .txb) (withTx [1#8, 2#8, 3#8, 4#8])).err ≠ .bufferOverflow ∧
    exec (.ckAppend16 .txb) (withTx [1#8, 2#8]) = .next (after (.ckAppend16 .txb) (withTx [1#8, 2#8])) ∧
    (after (.ckAppend16 .txb) (withTx [1#8, 2#8])).err ≠ .bufferOverflow :=
  ⟨exec_after (by decide), by decide, exec_after (by decide), by decide⟩

/-- Program L3-3: `01 02 03 04 0A`; two body bytes with bit 7 clear. -/
theorem test_witness_SingleBitFlipsAreDetected :
    exec (.ckCheck8 .txb) (withTx [1#8, 2#8, 3#8, 4#8, 0x0A#8]) =
      .next (after (.ckCheck8 .txb) (withTx [1#8, 2#8, 3#8, 4#8, 0x0A#8])) ∧
    (after (.ckCheck8 .txb) (withTx [1#8, 2#8, 3#8, 4#8, 0x0A#8])).res = true ∧
    4 < ((withTx [1#8, 2#8, 3#8, 4#8, 0x0A#8]).selLen .txb).val ∧
    ((withTx [1#8, 2#8, 3#8, 4#8, 0x0A#8]).selByte .txb 0).getLsbD 7 = false ∧
    ((withTx [1#8, 2#8, 3#8, 4#8, 0x0A#8]).selByte .txb 1).getLsbD 7 = false :=
  ⟨exec_after (by decide), by decide⟩

theorem test_witness_CrcOfFrameWithTrailerIsZero :
    crc16 ([0xFF#8, 0x03#8, 0x02#8, 0x00#8, 0x02#8] ++ [0x10#8, 0x51#8]) = 0#16 ∧
    [0x10#8, 0x51#8] = crcTrailer (crc16 [0xFF#8, 0x03#8, 0x02#8, 0x00#8, 0x02#8]) := by decide +kernel

theorem test_witness_MbBuild_modes : State.reset.mbck = true ∧ ({ State.reset with mbck := false } : State).mbck = false := by
  decide

/-- Each branch of MB_PARSE: lengths 0, 2 and 6 (one short), a mismatch and a valid frame. -/
theorem test_witness_MbParseOutcome :
    (after .mbParse State.reset).err = .noResponse ∧ (after .mbParse (withRx [0xFF#8, 0x03#8])).err = .incomplete ∧
    (after .mbParse (withRx (sourceFrame.take 6))).err = .incomplete ∧
    (after .mbParse { withRx sourceFrame with mbck := false }).err = .checksumMismatch ∧
    (after .mbParse (withRx sourceFrame)).err = .none := by decide +kernel

theorem test_witness_ShortFramesNeverParse :
    (withRx (sourceFrame.take 6)).rxlen.val < 3 + ((withRx (sourceFrame.take 6)).rxByte 2).toNat +
      trailerLen (withRx (sourceFrame.take 6)).mbck ∧
    (withRx (vendorFrame.take 5)).rxlen.val < max ((withRx (vendorFrame.take 5)).minLen 0x5A#8) 6 := by decide

theorem test_witness_SourceFrameParsesOnlyAsCrc16 :
    (withRx sourceFrame).rxlen.val = 7 ∧ (withRx sourceFrame).readBytes Config.rxBase 7 = sourceFrame ∧
    (withRx sourceFrame).mbck = true ∧ ({ withRx sourceFrame with mbck := false } : State).mbck = false := by decide

/-- V9b's table: entry 0 is the least index that holds the code; code 0x77 has no entry. -/
theorem test_witness_VbMinlenIsTheTableLookup :
    (cmdtOf [0x8000085A#32, 0x8000095A#32])[(0 : Fin 16)].valid = true ∧
    (cmdtOf [0x8000085A#32, 0x8000095A#32])[(0 : Fin 16)].code = 0x5A#8 ∧
    (∀ i : Fin 16, i < 0 → ¬ ((cmdtOf [0x8000085A#32, 0x8000095A#32])[i].valid = true ∧
      (cmdtOf [0x8000085A#32, 0x8000095A#32])[i].code = 0x5A#8)) ∧
    (∀ j : Fin 16, ¬ ((cmdtOf [0x8000085A#32, 0x8000095A#32])[j].valid = true ∧
      (cmdtOf [0x8000085A#32, 0x8000095A#32])[j].code = 0x77#8)) := by decide

/-- Each branch of VB_PARSE: lengths 0 and 5, the boundary 6, a mismatch and a valid frame. -/
theorem test_witness_VbParseOutcome :
    (after (.vbParse 0x5A#8) State.reset).err = .noResponse ∧
    (after (.vbParse 0x5A#8) (withRx (vendorFrame.take 5))).err = .tooShort ∧
    (after (.vbParse 0x5A#8) (withRx [0x11#8, 0#8, 0#8, 0#8, 0x5A#8, 0x6B#8])).err = .none ∧
    (after (.vbParse 0x5A#8) (withRx [0x11#8, 0#8, 0#8, 0#8, 0x5A#8, 0x6C#8])).err = .checksumMismatch := by decide

theorem test_witness_VendorBIgnoresMbck :
    exec (.vbParse 0x5A#8) (withRx vendorFrame) = .next (after (.vbParse 0x5A#8) (withRx vendorFrame)) :=
  exec_after (by decide)

/-- F15 and F16: PV = 0 and PV = 1. -/
theorem test_witness_DecodeWithoutPayloadIsNoPayload :
    State.reset.pv ≠ .modbus ∧ State.reset.pv ≠ .vendorB ∧ (after .mbParse (withRx sourceFrame)).pv ≠ .vendorB := by
  decide +kernel

/-- F2's table is consistent over its two words. -/
theorem test_consistent_two : tableConsistent (fdescOf [(0x1#32, 10#32), (0x2#32, 10#32)]) 2 where
  scales := by decide
  simplesDiffer := by decide
  contsFollow := by decide

theorem test_witness_FdDecodeMbOfConsistentTable :
    (mbLatched [0x00#8, 0x64#8, 0x00#8, 0x05#8] [(0x1#32, 10#32), (0x2#32, 10#32)]).pv = .modbus ∧
    (mbLatched [0x00#8, 0x64#8, 0x00#8, 0x05#8] [(0x1#32, 10#32), (0x2#32, 10#32)]).parse.len = 4#10 ∧
    tableConsistent (mbLatched [0x00#8, 0x64#8, 0x00#8, 0x05#8] [(0x1#32, 10#32), (0x2#32, 10#32)]).fdesc
      (min ((mbLatched [0x00#8, 0x64#8, 0x00#8, 0x05#8] [(0x1#32, 10#32), (0x2#32, 10#32)]).parse.len.toNat / 2) 32) := by
  have h : (mbLatched [0x00#8, 0x64#8, 0x00#8, 0x05#8] [(0x1#32, 10#32), (0x2#32, 10#32)]).parse.len = 4#10 := by
    decide
  refine ⟨by decide, h, ?_⟩
  rw [h]
  exact test_consistent_two

/-- G1's table is consistent, and its fields lie within the three data bytes. -/
theorem test_witness_FdDecodeVbOfConsistentTable :
    (vbLatched [0x34#8, 0x12#8, 0x07#8] [(0x9#32, 10#32), (0x00020015#32, 1#32)]).pv = .vendorB ∧
    tableConsistent (vbLatched [0x34#8, 0x12#8, 0x07#8] [(0x9#32, 10#32), (0x00020015#32, 1#32)]).fdesc 32 ∧
    fieldsWithin (vbLatched [0x34#8, 0x12#8, 0x07#8] [(0x9#32, 10#32), (0x00020015#32, 1#32)]).fdesc
      (vbLatched [0x34#8, 0x12#8, 0x07#8] [(0x9#32, 10#32), (0x00020015#32, 1#32)]).parse.len.toNat := by
  refine ⟨by decide, ⟨by decide, by decide, by decide⟩, ?_⟩
  unfold fieldsWithin
  decide

/-- F7 and G5: a decode that does not succeed, for both variants. -/
theorem test_witness_InconsistentDecodeReportsAndClears :
    (mbLatched [0x00#8, 0x64#8, 0x00#8, 0x05#8] [(0x1#32, 10#32), (0x2#32, 100#32)]).pv = .modbus ∧
    (after .fdDecodeMb (mbLatched [0x00#8, 0x64#8, 0x00#8, 0x05#8] [(0x1#32, 10#32), (0x2#32, 100#32)])).err ≠ .none ∧
    (vbLatched [0x34#8, 0x12#8, 0x07#8] [(0x00020009#32, 1#32)]).pv = .vendorB ∧
    (after .fdDecodeVb (vbLatched [0x34#8, 0x12#8, 0x07#8] [(0x00020009#32, 1#32)])).err ≠ .none := by decide

/-- F1 and G8: latched payloads, with decodes that answer. -/
theorem test_witness_DecodeSucceedsIffTableConsistent :
    (mbLatched [0x00#8, 0x02#8] [(0x1#32, 1#32)]).pv = .modbus ∧
    (after .fdDecodeMb (mbLatched [0x00#8, 0x02#8] [(0x1#32, 1#32)])).err = .none ∧
    (vbLatched [] []).pv = .vendorB ∧ (after .fdDecodeVb (vbLatched [] [])).err = .none := by decide

/-- F2's state meets every hypothesis of the accumulation rule. -/
theorem test_witness_SimpleThenContAddsTheWords :
    (mbLatched [0x00#8, 0x64#8, 0x00#8, 0x05#8] [(0x1#32, 10#32), (0x2#32, 10#32)]).parse.len = 4#10 ∧
    (fdescOf [(0x1#32, 10#32), (0x2#32, 10#32)])[(0 : Fin 32)].kind = .simple ∧
    (fdescOf [(0x1#32, 10#32), (0x2#32, 10#32)])[(1 : Fin 32)].kind = .cont ∧
    (fdescOf [(0x1#32, 10#32), (0x2#32, 10#32)])[(1 : Fin 32)].slot =
      (fdescOf [(0x1#32, 10#32), (0x2#32, 10#32)])[(0 : Fin 32)].slot ∧
    (fdescOf [(0x1#32, 10#32), (0x2#32, 10#32)])[(1 : Fin 32)].scale =
      (fdescOf [(0x1#32, 10#32), (0x2#32, 10#32)])[(0 : Fin 32)].scale ∧
    (fdescOf [(0x1#32, 10#32), (0x2#32, 10#32)])[(0 : Fin 32)].scale ≠ 0#16 := by decide

theorem test_witness_DecodeStartsFromAFreshSample :
    (mbLatched [0x00#8, 0x02#8] []).pv = .modbus ∧ (vbLatched [0x34#8] []).pv = .vendorB := by decide

/-- SC_IN 0, 1 and 2, where the clauses meet. -/
theorem test_witness_ScClassMbIsTheExactMatch :
    State.reset.scIn = 0#32 ∧ ({ State.reset with scIn := 1#32 } : State).scIn = 1#32 ∧
    2 ≤ ({ State.reset with scIn := 2#32 } : State).scIn.toNat := by decide

/-- S10 and S14: the first match is k = 8; no match. -/
theorem test_witness_ScClassVbFirstMatchWins :
    (0x300#32 &&& State.reset.params.vbMask 8 ≠ 0#32) ∧ (∀ j : Fin 12, j < 8 → 0x300#32 &&& State.reset.params.vbMask j = 0#32) ∧
    (0x1000#32 ≠ 0#32) ∧ (∀ k : Fin 12, 0x1000#32 &&& State.reset.params.vbMask k = 0#32) ∧
    State.reset.params = Params.default ∧ (0x300#32).getLsbD 8 = true ∧ (∀ j < 8, (0x300#32).getLsbD j = false) ∧
    (∀ k < 12, (0x1000#32).getLsbD k = false) := by decide

theorem test_witness_SourceBitmaskExample : ({ State.reset with scIn := 0x009#32 } : State).scIn = 0x009#32 := by decide

theorem test_witness_ReadsHaveNoSideEffect :
    ∃ t, State.reset.playMove (.read 0x000 0xF#4 5) = .next t ∧ t.vars = [(5, 0x53430001#32)] := ⟨_, rfl, by decide⟩

/-- The edges of the reserved ranges, and the last mapped offsets beside them. -/
theorem test_witness_IllFormedAndReservedAccessesGetError :
    reservedOffset 0x038 ∧ reservedOffset 0x070 ∧ reservedOffset 0x0FC ∧ reservedOffset 0x340 ∧ reservedOffset 0x3FC ∧
    ¬ reservedOffset 0x034 ∧ ¬ reservedOffset 0x06C ∧ ¬ reservedOffset 0x100 ∧ ¬ reservedOffset 0x33C ∧
    ¬ reservedOffset 0x400 ∧ ¬ reservedOffset 0x7FC := by
  simp [reservedOffset]

theorem test_witness_ReadOnlyRegistersIgnoreWrites :
    State.reset.engine = .idle ∧ readOnlyOffset 0x000 ∧ readOnlyOffset 0x06C ∧ readOnlyOffset 0x100 ∧ readOnlyOffset 0x1FC := by
  refine ⟨rfl, .inl (by decide), .inl (by decide), .inr (by decide), .inr (by decide)⟩

/-- N6: BUSY = 1; the three exceptions and a locked register. -/
theorem test_witness_WriteLockWhileBusy :
    (inFlight 3 []).busy = true ∧ ¬ reservedOffset 0x004 ∧ ¬ reservedOffset 0x008 ∧ ¬ reservedOffset 0x00C ∧
    ¬ reservedOffset 0x010 ∧ (0x4#32).getLsbD 2 = true ∧ (0x3#32).getLsbD 2 = false := by
  unfold reservedOffset
  decide

theorem test_witness_idle_block : State.reset.engine = .idle := rfl

/-- N7: a STATUS write answers OKAY in a busy block too. -/
theorem test_witness_StatusWriteClearsItsBits :
    (inFlight 3 []).busWrite 0x00C 0xF#4 0x0C#32 = .ok ((inFlight 3 []).writeStatus 0x0C#32, .okay) := by decide

/-- RXLEN 511 and 512, where the clauses of RXPUSH meet. -/
theorem test_witness_RxPushAppendsAByte :
    ({ State.reset with rxlen := 511 } : State).rxlen.val < 512 ∧ ({ State.reset with rxlen := 512 } : State).rxlen.val = 512 := by
  decide

theorem test_witness_InputsAndTablesReadBack :
    inputOffset 0x020 ∧ inputOffset 0x034 ∧ inputOffset 0x060 ∧ inputOffset 0x200 ∧ inputOffset 0x2FC ∧ inputOffset 0x33C := by
  refine ⟨.inl (by decide), .inl (by decide), .inl (by decide), .inr (by decide), .inr (by decide), .inr (by decide)⟩

theorem test_witness_CtrlWriteStoresOrSoftResets :
    (0x00000007#32).getLsbD 2 = true ∧ (0x00000003#32).getLsbD 2 = false ∧ State.reset.engine = .idle := by decide

/-- A clear of DONE that plays before the completion, and one that plays after it. -/
theorem test_witness_IrqFollowsEnableAndDone :
    (inFlight 2 [hostWr 0x00C 0x2#32]).engine = .running 0x0011#16 2 ∧
    (inFlight 1 [hostWr 0x00C 0x2#32]).engine = .running 0x0011#16 1 ∧
    (inFlight 1 [hostWr 0x00C 0x2#32]).host = hostWr 0x00C 0x2#32 :: [] ∧ (0x2#32).getLsbD 1 = true ∧
    (0x2#32).getLsbD 0 = false := by decide

/-- One state for each listed event: an RXLEN write, a failed parse, a soft reset, power-on; and one with none of them. -/
theorem test_witness_PvChangesOnlyByTheListedEvents :
    PvClearingEvent { State.reset with host := [hostWr 0x010 0#32] } State.reset ∧
    PvClearingEvent (inFlight 1 []) (after .mbParse State.reset) ∧
    PvClearingEvent { State.reset with host := [hostWr 0x004 0x4#32] } State.reset ∧
    PvClearingEvent { State.reset with host := [.powerOn] } State.reset ∧
    ¬ PvClearingEvent State.reset State.reset ∧ ¬ State.reset.completing .mbParse := by
  have hc : ∀ i, ¬ State.reset.completing i := fun i h => by
    obtain ⟨p, h1, -⟩ := h
    cases h1
  have hm : ∀ m, ¬ State.reset.hostMoves m := fun m h => by
    have := h.2
    cases this
  refine ⟨.inl ⟨0x010, .lit 0#32, ⟨rfl, rfl⟩, rfl, by decide, .inl rfl⟩,
    .inr (.inr (.inr (.inl ⟨⟨0x0011#16, rfl, by decide⟩, by decide⟩))),
    .inr (.inr (.inr (.inr (.inr (.inr ⟨.lit 0x4#32, 0x4#32, ⟨rfl, rfl⟩, rfl, by decide⟩))))),
    .inr (.inr (.inr (.inr (.inr (.inl ⟨rfl, rfl⟩))))), ?_, hc _⟩
  rintro (⟨_, _, h, -⟩ | ⟨h, -⟩ | ⟨h, -⟩ | ⟨h, -⟩ | ⟨_, h, -⟩ | h | ⟨_, _, h, -⟩)
  · exact hm _ h
  · exact hc _ h
  · exact hc _ h
  · exact hc _ h
  · exact hc _ h
  · exact hm _ h
  · exact hm _ h

/-- The state after reset meets the invariant (and steps, by `test_step_without_moves`). -/
theorem test_witness_StepKeepsTheInvariant : State.reset.Inv where
  memForm := rfl
  varsForm := rfl
  latched := fun p left h => by cases h
  modbus := fun h => by cases h
  vendorB := fun h => by cases h
  slots := fun k => by
    have h : State.reset.slots[k] = Slot.empty := by simp [State.reset]
    rw [h]
    exact ⟨fun _ => rfl, fun h => by cases h⟩
  decIndex := fun _ => rfl
  decFailed := fun h => absurd rfl h

/-- With no command in flight and no host move to come, a step changes nothing. -/
theorem test_step_without_moves : step State.reset = .next State.reset := rfl

/-- PV = 1 over the source's frame meets the invariant's clause. -/
theorem test_witness_ModbusLatched : (after .mbParse (withRx sourceFrame)).ModbusLatched where
  addr := by decide +kernel
  func := by decide +kernel
  src := by decide +kernel
  bcnt := by decide +kernel
  off := by decide +kernel
  len := by decide +kernel
  within := by decide +kernel
  trailer := ⟨true, by decide +kernel, by decide +kernel⟩

/-- PV = 2 over the frame of V11 meets the invariant's clause. -/
theorem test_witness_VendorBLatched : (after (.vbParse 0x5A#8) (withRx vendorFrame)).VendorBLatched where
  atLeastSix := by decide
  addr := by decide
  src := by decide
  func := by decide
  bcnt := by decide
  off := by decide
  len := by decide
  flen := by decide
  checksum := by decide

/-- A sound program, and the two faults of an unsound one. -/
theorem test_witness_SoundHostProgramsNeverStop :
    ({ State.reset with host := hostRd 0x104 7 :: hostWrVar 0x060 7 :: hostCmd .scClassMb } : State).hostSound := by
  unfold State.hostSound
  decide

/-- Three turns to go, the host polling; and with no host move. -/
theorem test_witness_InputsHoldUntilCompletion :
    (inFlight 3 [hostRd 0x00C 1, .wait]).engine = .running 0x0011#16 (2 + 1) ∧
    (∀ m ∈ (inFlight 3 [hostRd 0x00C 1, .wait]).host.take 2, m.mayReset = false) ∧
    (∃ t, Host.Core.run Sys2Proof.core 2 (inFlight 3 [hostRd 0x00C 1, .wait]) = .next t) ∧ (inFlight 3 []).host = [] :=
  ⟨rfl, by decide, ⟨_, rfl⟩, rfl⟩

/-- After reset no byte lies below the lengths, so any other memory agrees there. -/
theorem test_witness_BytesBeyondTheLengthsAreNotRead :
    (∀ j < State.reset.rxlen.val,
      ({ State.reset with mem := [(0x400, 7#8)], bufDraw := 3 } : State).rxByte j = State.reset.rxByte j) ∧
    (∀ j < State.reset.txlen.val,
      ({ State.reset with mem := [(0x400, 7#8)], bufDraw := 3 } : State).txByte j = State.reset.txByte j) :=
  ⟨fun _ h => absurd h (Nat.not_lt_zero _), fun _ h => absurd h (Nat.not_lt_zero _)⟩

theorem test_witness_LoadRxLoadsTheFrame :
    ({ State.reset with host := hostLoadRx sourceFrame ++ hostCmd .mbParse } : State).engine = .idle ∧
    sourceFrame.length ≤ 512 := by decide

theorem test_witness_WrBytesReplacesExactlyThoseBytes :
    ({ State.reset with host := hostWrBytes .txb 9 3 sourceFrame ++ [] } : State).engine = .idle ∧
    ({ State.reset with host := hostWrBytes .txb 9 3 sourceFrame ++ [] } : State).host = hostWrBytes .txb 9 3 sourceFrame ++ [] ∧
    0 < [1#8, 2#8].length ∧ 511 + 0 < 512 ∧ ¬ 511 + 1 < 512 := by decide

theorem test_witness_CmdStatementRunsTheOperation :
    ({ State.reset with host := hostCmd .nop ++ [] } : State).engine = .idle ∧
    ({ State.reset with host := hostCmd .nop ++ [] } : State).host = hostCmd .nop ++ [] := by decide

end Sys2Proof.Tests
end

section
/-! PROOF. Every operation answers `finish` on a state that differs from its start only in what operations may write. -/

namespace Sys2Proof.Machine

theorem SameOutsideOperations.refl (s : State) : SameOutsideOperations s s := by
  constructor <;> rfl

theorem SameOutsideOperations.setParse (s : State) (p : ParseRegs) (pv : Pv) :
    SameOutsideOperations s (s.setParse p pv) := by
  constructor <;> rfl

theorem SameOutsideOperations.append (s : State) (sel : Sel) (bs : List Byte) :
    SameOutsideOperations s (s.append sel bs) := by
  constructor <;> simp

theorem SameOutsideOperations.putFrame (s : State) (bs : List Byte) : SameOutsideOperations s (s.putFrame bs) := by
  constructor <;> rfl

theorem SameOutsideOperations.withClass (s : State) (c : ClassCode) :
    SameOutsideOperations s { s with scClass := c } := by
  constructor <;> rfl

theorem SameOutsideOperations.withDecode (s : State) (slots : Vector Slot 32) (info : DecInfo) :
    SameOutsideOperations s { s with slots := slots, decInfo := info } := by
  constructor <;> rfl

theorem SameOutsideOperations.finish {s u : State} (h : SameOutsideOperations s u) (e : Err) (b : Bool) (w : Word) :
    SameOutsideOperations s (u.finish e b w) := by
  cases h
  constructor <;> assumption

/-- The outcome is a completion (60_exceptions.md R216) of an update of `s` inside the operations' own registers, and RES is
set only without an error. -/
def Finishes (s : State) (o : Host.Outcome State Fault Refusal) : Prop :=
  ∃ u e b w, o = .next (u.finish e b w) ∧ SameOutsideOperations s u ∧ (b = true → e = .none)

theorem finishes_finish {s u : State} (h : SameOutsideOperations s u) (b : Bool) (w : Word) :
    Finishes s (.next (u.finish .none b w)) :=
  ⟨u, .none, b, w, rfl, h, fun _ => rfl⟩

theorem finishes_raise (s : State) (e : Err) : Finishes s (.next (s.raise e)) :=
  ⟨s, e, false, 0#32, rfl, .refl s, nofun⟩

theorem finishes_failParse (s : State) (e : Err) (w : Word) : Finishes s (.next (s.failParse e w)) :=
  ⟨s.setParse ParseRegs.zero .none, e, false, w, rfl, .setParse s _ _, nofun⟩

theorem finishes_endDecode (s : State) (odd trunc : Bool) (r : Except (Reason × Fin 32) DecodeWork) :
    Finishes s (.next (s.endDecode odd trunc r)) := by
  cases r with
  | ok work => exact finishes_finish (.withDecode s _ _) true _
  | error stop => exact ⟨_, .decodeInconsistency, false, 0#32, rfl, .withDecode s _ _, nofun⟩

theorem execCkCheck8_finishes (sel : Sel) (s : State) : Finishes s (execCkCheck8 sel s) := by
  unfold execCkCheck8
  dsimp only
  split
  · exact finishes_raise s _
  · exact finishes_finish (.refl s) _ _

theorem execCkCheck16_finishes (sel : Sel) (s : State) : Finishes s (execCkCheck16 sel s) := by
  unfold execCkCheck16
  dsimp only
  split
  · exact finishes_raise s _
  split
  · exact finishes_raise s _
  · exact finishes_finish (.refl s) _ _

theorem execCkAppend8_finishes (sel : Sel) (s : State) : Finishes s (execCkAppend8 sel s) := by
  obtain ⟨-, h⟩ | ⟨-, h⟩ := execCkAppend8_cases sel s <;> rw [h]
  · exact finishes_raise s _
  · exact finishes_finish (.append s sel _) _ _

theorem execCkAppend16_finishes (sel : Sel) (s : State) : Finishes s (execCkAppend16 sel s) := by
  obtain ⟨-, h⟩ | ⟨-, h⟩ := execCkAppend16_cases sel s <;> rw [h]
  · exact finishes_raise s _
  · exact finishes_finish (.append s sel _) _ _

theorem execMbParse_finishes (s : State) : Finishes s (execMbParse s) := by
  obtain ⟨e, w, -, h⟩ | ⟨-, -, -, h⟩ := execMbParse_cases s <;> rw [h]
  · exact finishes_failParse s e w
  · exact finishes_finish (.setParse s _ _) _ _

theorem execVbParse_finishes (c : Byte) (s : State) : Finishes s (execVbParse c s) := by
  obtain ⟨e, w, -, h⟩ | ⟨-, -, h⟩ := execVbParse_cases c s <;> rw [h]
  · exact finishes_failParse s e w
  · exact finishes_finish (.setParse s _ _) _ _

theorem execFdDecodeMb_finishes (s : State) : Finishes s (execFdDecodeMb s) := by
  unfold execFdDecodeMb
  split
  · exact finishes_raise s _
  · exact finishes_endDecode s _ _ _

theorem execFdDecodeVb_finishes (s : State) : Finishes s (execFdDecodeVb s) := by
  unfold execFdDecodeVb
  split
  · exact finishes_raise s _
  · exact finishes_endDecode s _ _ _

/-- R210, R216: every operation, in every state, ends in a completion. -/
theorem exec_finishes (i : Instr) (s : State) : Finishes s (exec i s) := by
  cases i with
  | nop | ckSum8 _ | ckCrc16 _ | vbMinlen _ => exact finishes_finish (.refl s) _ _
  | ckCheck8 sel => exact execCkCheck8_finishes sel s
  | ckAppend8 sel => exact execCkAppend8_finishes sel s
  | ckCheck16 sel => exact execCkCheck16_finishes sel s
  | ckAppend16 sel => exact execCkAppend16_finishes sel s
  | mbBuild | vbBuild _ => exact finishes_finish (.putFrame s _) _ _
  | mbParse => exact execMbParse_finishes s
  | vbParse c => exact execVbParse_finishes c s
  | fdDecodeMb => exact execFdDecodeMb_finishes s
  | fdDecodeVb => exact execFdDecodeVb_finishes s
  | scClassMb | scClassVb => exact finishes_finish (.withClass s _) _ _

/-- The next state of an operation keeps what no operation writes. -/
theorem exec_sameOutside {i : Instr} {s t : State} (h : exec i s = .next t) : SameOutsideOperations s t := by
  obtain ⟨u, e, b, w, hx, hu, -⟩ := exec_finishes i s
  cases hx.symm.trans h
  exact hu.finish e b w

end Sys2Proof.Machine
end

section
/-! PROOF. A host program with a meaning at every move never stops the machine: which host moves fault, and what a step leaves
of the program and of the variables it has set. -/

namespace Sys2Proof

/-- The host variables known to be set after a move, given those known before it. -/
def HostMove.knownAfter (known : List Nat) : HostMove → List Nat
  | .read _ _ into => into :: known
  | .write _ _ _ | .idle | .wait | .powerOn => known

theorem HostMove.varsIn_mono {known known' : List Nat} (hk : known ⊆ known') {m : HostMove}
    (h : m.varsIn known = true) : m.varsIn known' = true := by
  cases m with
  | write off lanes v =>
    cases v with
    | lit w => rfl
    | var n => exact List.contains_iff_mem.2 (hk (List.contains_iff_mem.1 h))
    | merge n mask data => exact List.contains_iff_mem.2 (hk (List.contains_iff_mem.1 h))
  | read _ _ _ | idle | wait | powerOn => rfl

theorem HostMove.knownAfter_mono {known known' : List Nat} (hk : known ⊆ known') (m : HostMove) :
    m.knownAfter known ⊆ m.knownAfter known' := by
  cases m with
  | read off lanes into => exact List.cons_subset_cons into hk
  | write _ _ _ | idle | wait | powerOn => exact hk

end Sys2Proof

namespace Sys2Proof.Machine

theorem movesSound_cons (known : List Nat) (m : HostMove) (rest : List HostMove) :
    movesSound known (m :: rest) = true ↔
      m.insideWindow = true ∧ m.varsIn known = true ∧ movesSound (m.knownAfter known) rest = true := by
  cases m <;> simp [movesSound, HostMove.knownAfter, and_assoc]

theorem movesSound_mono {moves : List HostMove} {known known' : List Nat} (hk : known ⊆ known')
    (h : movesSound known moves = true) : movesSound known' moves = true := by
  induction moves generalizing known known' with
  | nil => rfl
  | cons m rest ih =>
    obtain ⟨hw, hv, hr⟩ := (movesSound_cons known m rest).1 h
    exact (movesSound_cons known' m rest).2 ⟨hw, m.varsIn_mono hk hv, ih (m.knownAfter_mono hk) hr⟩

theorem lookupAt_eq_none_iff {α : Type} (m : List (Nat × α)) (a : Nat) :
    lookupAt m a = none ↔ a ∉ m.map (·.1) := by
  induction m with
  | nil => simp [lookupAt]
  | cons c rest ih =>
    by_cases h : c.1 = a
    · simp [lookupAt, h]
    · simpa [lookupAt, h, Ne.symm h] using ih

theorem mem_keys_insertAt {α : Type} (m : List (Nat × α)) (a b : Nat) (v : α) :
    b ∈ (insertAt m a v).map (·.1) ↔ b = a ∨ b ∈ m.map (·.1) := by
  have h := lookupAt_eq_none_iff (insertAt m a v) b
  rw [lookupAt_insertAt] at h
  by_cases hb : b = a
  · simpa [hb] using h
  · rw [if_neg hb, lookupAt_eq_none_iff] at h
    simpa [hb] using not_iff_not.1 h.symm

/-! ### Which host moves fault -/

theorem accessTarget_error {off : Nat} {lanes : BitVec 4} {f : Fault} (h : accessTarget off lanes = .error f) :
    Config.windowBytes ≤ off := by
  unfold accessTarget at h
  split at h
  · assumption
  · split at h <;> cases h

theorem busRead_error {s : State} {off : Nat} {lanes : BitVec 4} {f : Fault} (h : s.busRead off lanes = .error f) :
    Config.windowBytes ≤ off := by
  unfold State.busRead at h
  split at h
  · exact accessTarget_error ‹_›
  · cases h
  · cases h

theorem busWrite_error {s : State} {off : Nat} {lanes : BitVec 4} {d : Word} {f : Fault}
    (h : s.busWrite off lanes d = .error f) : Config.windowBytes ≤ off := by
  unfold State.busWrite at h
  split at h
  · exact accessTarget_error ‹_›
  · cases h
  · cases h

theorem hostValue_error {s : State} {v : HostValue} {f : Fault} (h : s.hostValue v = .error f)
    (off : Nat) (lanes : BitVec 4) : (HostMove.write off lanes v).varsIn (s.vars.map (·.1)) = false := by
  cases v with
  | lit w => cases h
  | var n | merge n mask data =>
    cases hl : lookupAt s.vars n with
    | some w => simp [State.hostValue, hl] at h
    | none => simpa [HostMove.varsIn] using (lookupAt_eq_none_iff s.vars n).1 hl

/-- A host move is answered, or it faults by an access outside the window or by a variable that no read has set. -/
theorem playMove_next_or_fault (s : State) (m : HostMove) :
    (∃ t, s.playMove m = .next t) ∨
    ((∃ f, s.playMove m = .fault f) ∧ (m.insideWindow = false ∨ m.varsIn (s.vars.map (·.1)) = false)) := by
  cases m with
  | idle | wait | powerOn => exact .inl ⟨_, rfl⟩
  | read off lanes into =>
    cases hr : s.busRead off lanes with
    | ok a => exact .inl ⟨_, by simp only [State.playMove, hr]; rfl⟩
    | error f =>
      refine .inr ⟨⟨f, by simp only [State.playMove, hr]⟩, .inl ?_⟩
      simpa [HostMove.insideWindow] using busRead_error hr
  | write off lanes v =>
    cases hv : s.hostValue v with
    | error f => exact .inr ⟨⟨f, by simp only [State.playMove, hv]⟩, .inr (hostValue_error hv off lanes)⟩
    | ok d =>
      cases hw : s.busWrite off lanes d with
      | ok a => exact .inl ⟨_, by simp only [State.playMove, hv, hw]; rfl⟩
      | error f =>
        refine .inr ⟨⟨f, by simp only [State.playMove, hv, hw]⟩, .inl ?_⟩
        simpa [HostMove.insideWindow] using busWrite_error hw

/-- Every step is answered, but for a host turn whose move faults. -/
theorem step_next_or_fault (s : State) :
    (∃ t, step s = .next t) ∨
    ((∃ f, step s = .fault f) ∧ s.turn = .host ∧
      ∃ m, s.host.head? = some m ∧ (m.insideWindow = false ∨ m.varsIn (s.vars.map (·.1)) = false)) := by
  unfold step
  split
  case h_1 p hp =>
    split
    case h_1 i hi =>
      obtain ⟨u, e, b, w, hx, -⟩ := exec_finishes i s
      exact .inl ⟨_, hx⟩
    case h_2 => exact .inl ⟨_, rfl⟩
  case h_2 ht =>
    unfold State.hostTurn
    rw [State.tick_host]
    split
    case h_1 => exact .inl ⟨_, rfl⟩
    case h_2 m rest hh =>
      obtain hn | ⟨hf, hm⟩ := playMove_next_or_fault { s.tick with host := rest } m
      · exact .inl hn
      · exact .inr ⟨hf, ht, m, by simp [hh], by simpa using hm⟩

/-! ### What a step leaves of the program and of the variables -/

/-- The host's moves to come and its variables are the same in both states. -/
structure SameHostSide (s t : State) : Prop where
  vars : t.vars = s.vars
  host : t.host = s.host

theorem SameHostSide.hostSound {s t : State} (h : SameHostSide s t) (hs : s.hostSound) : t.hostSound := by
  unfold State.hostSound
  rw [h.vars, h.host]
  exact hs

theorem writeCtrl_sameHostSide (s : State) (d : Word) : SameHostSide s (s.writeCtrl d) := by
  unfold State.writeCtrl
  split <;> exact ⟨rfl, rfl⟩

theorem pushRx_sameHostSide (s : State) (d : Word) : SameHostSide s (s.pushRx d) := by
  unfold State.pushRx
  split <;> exact ⟨rfl, rfl⟩

theorem writeStatus_sameHostSide (s : State) (d : Word) : SameHostSide s (s.writeStatus d) :=
  ⟨s.writeStatus_vars d, s.writeStatus_host d⟩

theorem writeIdle_sameHostSide (s : State) (d : Word) (r : Reg) : SameHostSide s (s.writeIdle d r) := by
  cases r
  case ctrl => exact writeCtrl_sameHostSide s d
  case rxpush => exact pushRx_sameHostSide s d
  case status => exact writeStatus_sameHostSide s d
  all_goals exact ⟨rfl, rfl⟩

theorem writeBusy_sameHostSide (s : State) (d : Word) (r : Reg) : SameHostSide s (s.writeBusy d r) := by
  cases r
  case ctrl =>
    unfold State.writeBusy
    dsimp only
    split <;> exact ⟨rfl, rfl⟩
  case status => exact writeStatus_sameHostSide s d
  all_goals exact ⟨rfl, rfl⟩

/-- No bus write touches the host's moves or variables, a soft reset included (assumption 12). -/
theorem busWrite_sameHostSide {s u : State} {off : Nat} {lanes : BitVec 4} {d : Word} {r : Resp}
    (h : s.busWrite off lanes d = .ok (u, r)) : SameHostSide s u := by
  obtain ⟨-, ⟨rfl, -⟩ | ⟨-, -, reg, -, rfl, -⟩⟩ := busWrite_cases h
  · exact ⟨rfl, rfl⟩
  · unfold State.writeReg
    split
    · exact writeBusy_sameHostSide s d reg
    · exact writeIdle_sameHostSide s d reg

/-- A move that was answered leaves a program with a meaning at every move: a read adds its variable to the ones set. -/
theorem playMove_hostSound {s t : State} {m : HostMove} (hs : movesSound (s.vars.map (·.1)) (m :: s.host) = true)
    (h : s.playMove m = .next t) : t.hostSound := by
  obtain ⟨-, -, hrest⟩ := (movesSound_cons _ m s.host).1 hs
  obtain ⟨rfl, rfl⟩ | ⟨off, lanes, into, d, r, rfl, -, rfl⟩ | ⟨off, lanes, v, d, u, r, rfl, -, hu, rfl⟩ |
    ⟨rfl, -, rfl⟩ | ⟨rfl, -, rfl⟩ | ⟨rfl, rfl⟩ := playMove_cases h
  case inr.inl =>
    refine movesSound_mono (fun n hn => ?_) hrest
    exact (mem_keys_insertAt s.vars into n d).2 (List.mem_cons.1 hn)
  case inr.inr.inl =>
    obtain ⟨hv, hh⟩ := busWrite_sameHostSide hu
    exact SameHostSide.hostSound (s := s) ⟨hv, hh⟩ hrest
  case inr.inr.inr.inl => exact hs
  all_goals exact hrest

theorem step_hostSound {s t : State} (hs : s.hostSound) (h : step s = .next t) : t.hostSound := by
  obtain ⟨p, i, -, -, hx⟩ | ⟨p, e, -, -, rfl⟩ | ⟨-, ht⟩ := step_cases h
  · have hsame := exec_sameOutside hx
    exact SameHostSide.hostSound ⟨hsame.vars, hsame.host⟩ hs
  · exact hs
  · have htick : s.tick.hostSound := SameHostSide.hostSound ⟨s.tick_vars, s.tick_host⟩ hs
    obtain ⟨-, rfl⟩ | ⟨m, rest, hh, hm⟩ := hostTurn_cases ht
    · exact htick
    · unfold State.hostSound at htick
      rw [hh] at htick
      exact playMove_hostSound htick hm

/-- A sound program's next move lies in the window and uses only variables that are set. -/
theorem hostSound_head {s : State} (hs : s.hostSound) {m : HostMove} (hm : s.host.head? = some m) :
    m.insideWindow = true ∧ m.varsIn (s.vars.map (·.1)) = true := by
  obtain ⟨rest, hh⟩ := List.head?_eq_some_iff.1 hm
  unfold State.hostSound at hs
  rw [hh] at hs
  obtain ⟨hw, hv, -⟩ := (movesSound_cons _ m rest).1 hs
  exact ⟨hw, hv⟩

theorem step_next_of_hostSound {s : State} (hs : s.hostSound) : ∃ t, step s = .next t := by
  obtain hn | ⟨-, -, m, hm, hbad⟩ := step_next_or_fault s
  · exact hn
  · obtain ⟨hw, hv⟩ := hostSound_head hs hm
    simp [hw, hv] at hbad

/-- Settles O54: a step answers or is a faulting host turn, and every answer keeps the host's program sound. -/
theorem soundHostProgramsNeverStop : Obligations.SoundHostProgramsNeverStop := by
  unfold Obligations.SoundHostProgramsNeverStop
  refine ⟨fun s hs => ?_, fun s r h => ?_, fun s f h => ?_⟩
  · obtain ⟨t, ht⟩ := step_next_of_hostSound hs
    exact ⟨t, ht, step_hostSound hs ht⟩
  · obtain ⟨t, ht⟩ | ⟨⟨f, hf⟩, -⟩ := step_next_or_fault s
    · cases h.symm.trans ht
    · cases h.symm.trans hf
  · obtain ⟨t, ht⟩ | ⟨-, hm⟩ := step_next_or_fault s
    · cases h.symm.trans ht
    · exact hm

end Sys2Proof.Machine
end

section
/-! PROOF. The register map both ways (10_state.md R20), and what a bus access does given the register it reaches. -/

namespace Sys2Proof.Machine

/-- The window offset of a register, table word or buffer word (10_state.md R20). -/
def offsetOf : Reg → Nat
  | .id => 0x000 | .ctrl => 0x004 | .cmd => 0x008 | .status => 0x00C | .rxlen => 0x010 | .txlen => 0x014
  | .rxpush => 0x018 | .result => 0x01C | .mbSlave => 0x020 | .mbFunc => 0x024 | .mbStart => 0x028 | .mbCount => 0x02C
  | .vbDest => 0x030 | .vbSrc => 0x034 | .pAddr => 0x040 | .pFunc => 0x044 | .pSrc => 0x048 | .pBcnt => 0x04C
  | .pOff => 0x050 | .pLen => 0x054 | .pFlen => 0x058 | .pstate => 0x05C | .scIn => 0x060 | .scClass => 0x064
  | .decInfo => 0x068 | .fvValid => 0x06C
  | .fvNum k => 0x100 + 4 * k.val
  | .fvDen k => 0x180 + 4 * k.val
  | .fdescCtl i => 0x200 + 8 * i.val
  | .fdescScale i => 0x204 + 8 * i.val
  | .cmdt j => 0x300 + 4 * j.val
  | .rxb w => 0x400 + 4 * w.val
  | .txb w => 0x600 + 4 * w.val

theorem offsetOf_mod_four (r : Reg) : offsetOf r % 4 = 0 := by
  cases r <;> simp only [offsetOf] <;> omega

theorem offsetOf_lt (r : Reg) : offsetOf r < 0x800 := by
  cases r <;> simp only [offsetOf] <;> omega

/-- The named registers of the map stand at their offsets. -/
theorem offsetOf_of_mem_namedOffsets : ∀ p ∈ namedOffsets, offsetOf p.2 = p.1 := by
  decide

theorem offsetOf_of_regAt {off : Nat} {r : Reg} (h4 : off % 4 = 0) (h : regAt off = some r) : offsetOf r = off := by
  unfold regAt at h
  split at h
  · obtain ⟨l₁, l₂, hl, -⟩ := List.lookup_eq_some_iff.1 h
    exact offsetOf_of_mem_namedOffsets (off, r) (by simp [hl])
  · repeat' split at h
    all_goals cases h
    all_goals
      simp only [offsetOf, Fin.val_ofNat]
      omega

@[simp] theorem regAt_offsetOf (r : Reg) : regAt (offsetOf r) = some r := by
  cases r with
  | fvNum k | fvDen k | fdescCtl k | fdescScale k | cmdt k | rxb k | txb k =>
    revert k
    decide
  | _ => rfl

/-- At an aligned offset stands a register exactly when the offset is the register's. -/
theorem regAt_eq_some_iff {off : Nat} (h4 : off % 4 = 0) (r : Reg) : regAt off = some r ↔ off = offsetOf r :=
  ⟨fun h => (offsetOf_of_regAt h4 h).symm, fun h => h ▸ regAt_offsetOf r⟩

/-- Every aligned offset of the window that is not reserved is mapped (10_state.md R20, 20_memory.md R73). -/
theorem regAt_of_not_reserved {off : Nat} (h : off < 0x800) (h4 : off % 4 = 0) (hr : ¬ reservedOffset off) :
    ∃ r, regAt off = some r := by
  have named : ∀ k < 28, k ≠ 14 → k ≠ 15 → (namedOffsets.lookup (4 * k)).isSome = true := by decide
  unfold reservedOffset at hr
  unfold regAt
  split
  · have := named (off / 4) (by omega) (by omega) (by omega)
    rw [show 4 * (off / 4) = off by omega] at this
    exact Option.isSome_iff_exists.1 this
  · repeat' split
    any_goals omega
    all_goals exact ⟨_, rfl⟩

theorem State.busWrite_offsetOf (s : State) (r : Reg) (d : Word) :
    s.busWrite (offsetOf r) 0xF#4 d = .ok (s.writeReg d r, .okay) :=
  busWrite_aligned (offsetOf_lt r) (offsetOf_mod_four r) (regAt_offsetOf r)

theorem State.busRead_offsetOf (s : State) (r : Reg) : s.busRead (offsetOf r) 0xF#4 = .ok (s.readReg r, .okay) :=
  busRead_aligned (offsetOf_lt r) (offsetOf_mod_four r) (regAt_offsetOf r)

theorem writeReg_of_idle {s : State} (h : s.engine = .idle) (d : Word) (r : Reg) : s.writeReg d r = s.writeIdle d r := by
  simp [State.writeReg, busy_of_idle h]

theorem writeReg_of_busy {s : State} (h : s.busy = true) (d : Word) (r : Reg) : s.writeReg d r = s.writeBusy d r := by
  simp [State.writeReg, h]

theorem busy_eq_false_iff (s : State) : s.busy = false ↔ s.engine = .idle := by
  cases h : s.engine <;> simp [State.busy, h]

/-- The write lock (10_state.md R57): what a write does while BUSY = 1, register by register. -/
theorem writeBusy_eq (s : State) (d : Word) (r : Reg) :
    s.writeBusy d r =
      if r = .status then s.writeStatus d
      else if r = .cmd then { s with ovr := true }
      else if r = .ctrl ∧ d.getLsbD 2 = true then s.softReset
      else { s with wbz := true } := by
  cases r <;> simp [State.writeBusy]

@[simp] theorem writeReg_status (s : State) (d : Word) : s.writeReg d .status = s.writeStatus d := by
  cases h : s.busy <;> simp [State.writeReg, h, State.writeIdle, State.writeBusy]

/-- A CTRL write with SRST = 1 is a soft reset, BUSY or not (70_reset_and_hazards.md R231). -/
theorem writeReg_ctrl_of_srst (s : State) {d : Word} (hd : d.getLsbD 2 = true) : s.writeReg d .ctrl = s.softReset := by
  cases h : s.busy <;> simp [State.writeReg, h, State.writeIdle, State.writeBusy, State.writeCtrl, hd]

/-! ### Turns -/

/-- The state on which the host's move plays: one turn has passed for the operation in flight, and the move is taken from the
list. -/
def State.beginMove (s : State) (rest : List HostMove) : State :=
  { s.tick with host := rest }

@[simp] theorem State.beginMove_pv (s : State) (rest : List HostMove) : (s.beginMove rest).pv = s.pv := s.tick_pv
@[simp] theorem State.beginMove_rxlen (s : State) (rest : List HostMove) : (s.beginMove rest).rxlen = s.rxlen := s.tick_rxlen
@[simp] theorem State.beginMove_vars (s : State) (rest : List HostMove) : (s.beginMove rest).vars = s.vars := s.tick_vars

@[simp] theorem State.beginMove_idle_iff (s : State) (rest : List HostMove) :
    (s.beginMove rest).engine = .idle ↔ s.engine = .idle := by
  cases h : s.engine <;> simp [State.beginMove, State.tick, h]

theorem step_host_nil {s : State} (ht : s.turn = .host) (hh : s.host = []) : step s = .next s.tick := by
  simp [step, ht, State.hostTurn, hh]

theorem step_host_cons {s : State} {m : HostMove} {rest : List HostMove} (ht : s.turn = .host) (hh : s.host = m :: rest) :
    step s = (s.beginMove rest).playMove m := by
  simp only [step, ht, State.hostTurn, State.tick_host, hh]
  rfl

theorem hostValue_congr {s t : State} (h : t.vars = s.vars) (v : HostValue) : t.hostValue v = s.hostValue v := by
  cases v <;> simp [State.hostValue, h]

end Sys2Proof.Machine
end

section
/-! PROOF. What an operation has written when it completes, once for every operation; PV is read off it (10_state.md R37, R38). -/

namespace Sys2Proof.Machine

/-- The slots and DEC_INFO that a decode may leave (10_state.md R41, R45; 44_field_decoder.md R170, R175). -/
structure DecodeSound (slots : Vector Slot 32) (info : DecInfo) : Prop where
  sound : ∀ k : Fin 32, slots[k].sound
  index : info.reason = .none → info.index = 0#5
  failed : info.reason ≠ .none → ∀ k : Fin 32, slots[k] = Slot.empty

theorem Slot.empty_sound : Slot.empty.sound :=
  ⟨fun _ => rfl, nofun⟩

@[simp] theorem emptyWork_slots (k : Fin 32) : emptyWork.slots[k] = Slot.empty := by
  simp [emptyWork]

/-- Over a consistent table, the sums of at most 32 raw values below 2^24 make sound slots. -/
theorem Decoded.sound {t : Vector FDesc 32} {val : Fin 32 → Nat} {n : Nat} {w : DecodeWork} (h : Decoded t val n w)
    (hc : tableConsistent t n) (hval : ∀ i, val i < 2 ^ 24) (k : Fin 32) : w.slots[k].sound := by
  cases hl : contributors t n k with
  | nil => exact h.empty k hl ▸ Slot.empty_sound
  | cons i rest =>
    have hi : i ∈ contributors t n k := by simp [hl]
    obtain ⟨hvalid, hden⟩ := h.held k i hi
    obtain ⟨hn, ha, -⟩ := (mem_contributors t n k i).1 hi
    refine ⟨fun hf => absurd (hvalid.symm.trans hf) (by decide), fun _ => ⟨hden ▸ hc.scales i hn ha, ?_⟩⟩
    have hlen := length_contributors_le t n k
    calc w.slots[k].num.toNat = rawSum val (contributors t n k) := h.num k
      _ ≤ (contributors t n k).length * (2 ^ 24 - 1) := rawSum_le val _ _ fun j _ => Nat.le_pred_of_lt (hval j)
      _ ≤ 32 * (2 ^ 24 - 1) := Nat.mul_le_mul_right _ hlen

theorem FieldFails.reason_ne_none {t : Vector FDesc 32} {raw : Fin 32 → Except Reason Nat} {i : Fin 32} {r : Reason}
    (h : FieldFails t raw i r) (hraw : raw i ≠ .error .none) : r ≠ .none := by
  cases h with
  | raw r ha hs hr => exact fun hn => hraw (hn ▸ hr)
  | _ => decide

/-- What an operation has written when it completes; the completion's own registers come on top. -/
inductive OpWrites (s : State) : State → Prop
  | nothing : OpWrites s s
  | append (sel : Sel) (bs : List Byte) (fits : (s.selLen sel).val + bs.length ≤ 512) : OpWrites s (s.append sel bs)
  | frame (bs : List Byte) (fits : bs.length ≤ 512) : OpWrites s (s.putFrame bs)
  | failedParse : OpWrites s (s.setParse ParseRegs.zero .none)
  | modbus (fits : 3 + (s.rxByte 2).toNat + trailerLen s.mbck ≤ s.rxlen.val)
      (trailer : s.readBytes (Config.rxBase + (3 + (s.rxByte 2).toNat)) (trailerLen s.mbck) =
        trailerBytes s.mbck (s.readBytes Config.rxBase (3 + (s.rxByte 2).toNat))) :
      OpWrites s (s.setParse (mbParseRegs s (s.rxByte 2).toNat (3 + (s.rxByte 2).toNat + trailerLen s.mbck)) .modbus)
  | vendorB (six : 6 ≤ s.rxlen.val)
      (checksum : s.rxByte (s.rxlen.val - 1) = add8 (s.readBytes Config.rxBase (s.rxlen.val - 1))) :
      OpWrites s (s.setParse (vbParseRegs s s.rxlen.val) .vendorB)
  | decode (slots : Vector Slot 32) (info : DecInfo) (sound : DecodeSound slots info) :
      OpWrites s { s with slots := slots, decInfo := info }
  | classCode (c : ClassCode) : OpWrites s { s with scClass := c }

/-- What PV is after operation `i`, given the error code it reports (R37, R38). -/
def pvAfter (i : Instr) (e : Err) (pv : Pv) : Pv :=
  match i with
  | .ckAppend8 .rxb | .ckAppend16 .rxb => if e = .none then .none else pv
  | .mbParse => if e = .none then .modbus else .none
  | .vbParse _ => if e = .none then .vendorB else .none
  | _ => pv

/-- The outcome of operation `i`: one of the listed updates, the PV that goes with the error code, and the completion. -/
def Ends (s : State) (i : Instr) (o : Host.Outcome State Fault Refusal) : Prop :=
  ∃ u e b w, o = .next (u.finish e b w) ∧ OpWrites s u ∧ u.pv = pvAfter i e s.pv

theorem ends_finish (s : State) {i : Instr} {e : Err} (b : Bool) (w : Word) (hi : pvAfter i e s.pv = s.pv) :
    Ends s i (.next (s.finish e b w)) :=
  ⟨s, e, b, w, rfl, .nothing, hi.symm⟩

theorem ends_failParse (s : State) {i : Instr} {e : Err} (w : Word) (hi : pvAfter i e s.pv = .none) :
    Ends s i (.next (s.failParse e w)) :=
  ⟨_, e, false, w, rfl, .failedParse, hi.symm⟩

theorem execCkCheck8_cases (sel : Sel) (s : State) : ∃ e b w, execCkCheck8 sel s = .next (s.finish e b w) := by
  unfold execCkCheck8
  dsimp only
  split <;> exact ⟨_, _, _, rfl⟩

theorem execCkCheck16_cases (sel : Sel) (s : State) : ∃ e b w, execCkCheck16 sel s = .next (s.finish e b w) := by
  unfold execCkCheck16
  dsimp only
  split
  · exact ⟨_, _, _, rfl⟩
  · split <;> exact ⟨_, _, _, rfl⟩

/-- A decode ends with sound slots, whether it commits its work or clears every slot. -/
theorem ends_endDecode (s : State) {i : Instr} (odd trunc : Bool) {raw : Fin 32 → Except Reason Nat}
    (hraw : ∀ j v, raw j = .ok v → v < 2 ^ 24) (hreason : ∀ j, raw j ≠ .error .none) (n : Nat)
    (hi : ∀ e, pvAfter i e s.pv = s.pv) :
    Ends s i (.next (s.endDecode odd trunc (decodeFields s.fdesc raw (indicesBelow n) emptyWork))) := by
  have hval : ∀ j, rawValue raw j < 2 ^ 24 := fun j => by
    unfold rawValue
    split
    · exact hraw j _ ‹_›
    · decide
  rw [indicesBelow_min]
  obtain ⟨w, hw, hd, hc, -⟩ | ⟨r, j, hw, -, hf, -⟩ := decodeFields_spec s.fdesc raw hraw (min n 32) (by omega) <;> rw [hw]
  · exact ⟨_, .none, true, _, rfl, .decode w.slots _ ⟨hd.sound hc hval, fun _ => rfl, fun h => absurd rfl h⟩, (hi _).symm⟩
  · have hr := hf.reason_ne_none (hreason j)
    exact ⟨_, .decodeInconsistency, false, _, rfl,
      .decode emptyWork.slots _ ⟨fun k => emptyWork_slots k ▸ Slot.empty_sound, fun h => absurd h hr, fun _ => emptyWork_slots⟩,
      (hi _).symm⟩

theorem vbRaw_ne_error_none (s : State) (j : Fin 32) : vbRaw s j ≠ .error .none := by
  unfold vbRaw
  dsimp only
  split
  · simp
  · split <;> simp

theorem execFdDecodeMb_ends (s : State) : Ends s .fdDecodeMb (execFdDecodeMb s) := by
  unfold execFdDecodeMb
  split
  · exact ends_finish s _ _ rfl
  · exact ends_endDecode s _ _ (mbRaw_bound s) nofun _ fun _ => rfl

theorem execFdDecodeVb_ends (s : State) : Ends s .fdDecodeVb (execFdDecodeVb s) := by
  unfold execFdDecodeVb
  split
  · exact ends_finish s _ _ rfl
  · exact ends_endDecode s _ _ (vbRaw_bound s) (vbRaw_ne_error_none s) _ fun _ => rfl

theorem execCkAppend8_ends (sel : Sel) (s : State) : Ends s (.ckAppend8 sel) (execCkAppend8 sel s) := by
  obtain ⟨-, h⟩ | ⟨hl, h⟩ := execCkAppend8_cases sel s <;> rw [h]
  · exact ends_finish s _ _ (by cases sel <;> rfl)
  · exact ⟨_, _, _, _, rfl, .append sel _ hl, by cases sel <;> rfl⟩

theorem execCkAppend16_ends (sel : Sel) (s : State) : Ends s (.ckAppend16 sel) (execCkAppend16 sel s) := by
  obtain ⟨-, h⟩ | ⟨hl, h⟩ := execCkAppend16_cases sel s <;> rw [h]
  · exact ends_finish s _ _ (by cases sel <;> rfl)
  · exact ⟨_, _, _, _, rfl, .append sel _ (by rw [length_crcTrailer]; omega), by cases sel <;> rfl⟩

theorem execMbParse_ends (s : State) : Ends s .mbParse (execMbParse s) := by
  obtain ⟨e, w, he, h⟩ | ⟨-, hfits, htrailer, h⟩ := execMbParse_cases s <;> rw [h]
  · exact ends_failParse s w (by simp [pvAfter, he])
  · exact ⟨_, _, _, _, rfl, .modbus hfits htrailer, rfl⟩

theorem execVbParse_ends (c : Byte) (s : State) : Ends s (.vbParse c) (execVbParse c s) := by
  obtain ⟨e, w, he, h⟩ | ⟨hsix, hsum, h⟩ := execVbParse_cases c s <;> rw [h]
  · exact ends_failParse s w (by simp [pvAfter, he])
  · exact ⟨_, _, _, _, rfl, .vendorB hsix hsum, rfl⟩

theorem exec_ends (i : Instr) (s : State) : Ends s i (exec i s) := by
  cases i with
  | nop | ckSum8 _ | ckCrc16 _ | vbMinlen _ => exact ends_finish s _ _ rfl
  | ckCheck8 sel =>
    obtain ⟨e, b, w, h⟩ := execCkCheck8_cases sel s
    exact (congrArg (Ends s _) h).mpr (ends_finish s b w rfl)
  | ckCheck16 sel =>
    obtain ⟨e, b, w, h⟩ := execCkCheck16_cases sel s
    exact (congrArg (Ends s _) h).mpr (ends_finish s b w rfl)
  | ckAppend8 sel => exact execCkAppend8_ends sel s
  | ckAppend16 sel => exact execCkAppend16_ends sel s
  | mbBuild =>
    refine ⟨_, _, _, _, rfl, .frame _ ?_, rfl⟩
    rw [List.length_append, length_trailerBytes]
    show 6 + trailerLen s.mbck ≤ 512
    cases s.mbck <;> decide
  | vbBuild c => exact ⟨_, _, _, _, rfl, .frame _ (by simp [vbRequestHead]), rfl⟩
  | mbParse => exact execMbParse_ends s
  | vbParse c => exact execVbParse_ends c s
  | fdDecodeMb => exact execFdDecodeMb_ends s
  | fdDecodeVb => exact execFdDecodeVb_ends s
  | scClassMb | scClassVb => exact ⟨_, _, _, _, rfl, .classCode _, rfl⟩

theorem exec_cases {i : Instr} {s t : State} (h : exec i s = .next t) :
    ∃ u b w, t = u.finish t.err b w ∧ OpWrites s u ∧ u.pv = pvAfter i t.err s.pv := by
  obtain ⟨u, e, b, w, hx, hu, hp⟩ := exec_ends i s
  cases hx.symm.trans h
  exact ⟨u, b, w, rfl, hu, hp⟩

theorem exec_pv {i : Instr} {s t : State} (h : exec i s = .next t) : t.pv = pvAfter i t.err s.pv := by
  obtain ⟨u, b, w, ht, -, hp⟩ := exec_cases h
  rw [← hp, ht]
  rfl

end Sys2Proof.Machine
end

section
/-! PROOF. PV over a step (10_state.md R37, R38): the operations' part is `exec_pv`, the host's part follows the register that a
write reaches. -/

namespace Sys2Proof.Machine

/-! ### Register writes -/

/-- The register writes that set PV to 0: an accepted change of RXB or RXLEN, and a soft reset. -/
def WriteClearsPv (s : State) (d : Word) : Reg → Prop
  | .rxlen | .rxb _ => s.engine = .idle
  | .rxpush => s.engine = .idle ∧ s.rxlen.val < 512
  | .ctrl => d.getLsbD 2 = true
  | _ => False

theorem writeReg_pv_of_clears {s : State} {d : Word} {r : Reg} (h : WriteClearsPv s d r) : (s.writeReg d r).pv = .none := by
  cases r
  case rxlen | rxb w =>
    rw [writeReg_of_idle h]
    rfl
  case rxpush =>
    obtain ⟨hi, hl⟩ := h
    rw [writeReg_of_idle hi]
    simp [State.writeIdle, State.pushRx, Config.bufBytes, hl]
  case ctrl =>
    rw [writeReg_ctrl_of_srst s h]
    rfl
  all_goals exact h.elim

theorem writeIdle_pv_of_not_clears {s : State} {d : Word} {r : Reg} (hi : s.engine = .idle) (h : ¬ WriteClearsPv s d r) :
    (s.writeIdle d r).pv = s.pv := by
  cases r
  case rxlen | rxb w => exact absurd hi h
  case rxpush =>
    have hl : ¬ s.rxlen.val < Config.bufBytes := fun hl => h ⟨hi, hl⟩
    simp [State.writeIdle, State.pushRx, hl]
  case ctrl =>
    change (s.writeCtrl d).pv = s.pv
    unfold State.writeCtrl
    split
    · exact absurd ‹_› h
    · rfl
  case status => exact s.writeStatus_pv d
  all_goals rfl

theorem writeBusy_pv_of_not_clears {s : State} {d : Word} {r : Reg} (h : ¬ WriteClearsPv s d r) :
    (s.writeBusy d r).pv = s.pv := by
  rw [writeBusy_eq]
  split
  · exact s.writeStatus_pv d
  split
  · rfl
  split
  case isTrue hc =>
    obtain ⟨rfl, hd⟩ := hc
    exact absurd hd h
  · rfl

theorem writeReg_pv_of_not_clears {s : State} {d : Word} {r : Reg} (h : ¬ WriteClearsPv s d r) :
    (s.writeReg d r).pv = s.pv := by
  unfold State.writeReg
  split
  · exact writeBusy_pv_of_not_clears h
  case isFalse hb => exact writeIdle_pv_of_not_clears ((busy_eq_false_iff s).1 (by simpa using hb)) h

/-- Among the accesses that reach a register, R38's are the writes that set PV to 0. -/
theorem writeClearsPv_iff {s : State} {d : Word} {off : Nat} {r : Reg} (h4 : off % 4 = 0) (h : regAt off = some r) :
    WriteClearsPv s d r ↔ acceptedRxWrite s off ∨ (off = 0x004 ∧ d.getLsbD 2 = true) := by
  obtain rfl := offsetOf_of_regAt h4 h
  unfold acceptedRxWrite
  cases r
  all_goals
    simp only [WriteClearsPv, offsetOf]
    grind

/-- R38's writes reach a register. -/
theorem regAt_of_clears {s : State} {d : Word} {off : Nat}
    (h : acceptedRxWrite s off ∨ (off = 0x004 ∧ d.getLsbD 2 = true)) : off < 0x800 ∧ off % 4 = 0 ∧ ∃ r, regAt off = some r := by
  have hoff : off < 0x800 ∧ off % 4 = 0 ∧ ¬ reservedOffset off := by
    unfold acceptedRxWrite at h
    unfold reservedOffset
    omega
  obtain ⟨hw, h4, hr⟩ := hoff
  exact ⟨hw, h4, regAt_of_not_reserved hw h4 hr⟩

/-! ### Host moves -/

/-- The host moves that set PV to 0 (R38): power-on, and a full write that changes RXB or RXLEN or is a soft reset. -/
def MoveClearsPv (s : State) : HostMove → Prop
  | .powerOn => True
  | .write off lanes v => lanes = 0xF#4 ∧
      (acceptedRxWrite s off ∨ off = 0x004 ∧ ∃ d, s.hostValue v = .ok d ∧ d.getLsbD 2 = true)
  | .idle | .wait | .read _ _ _ => False

theorem moveClearsPv_write_iff {s : State} {off : Nat} {lanes : BitVec 4} {v : HostValue} {d : Word}
    (hd : s.hostValue v = .ok d) : MoveClearsPv s (.write off lanes v) ↔
      lanes = 0xF#4 ∧ (acceptedRxWrite s off ∨ (off = 0x004 ∧ d.getLsbD 2 = true)) := by
  simp [MoveClearsPv, hd]

theorem playMove_pv_of_clears {s t : State} {m : HostMove} (h : s.playMove m = .next t) (hm : MoveClearsPv s m) :
    t.pv = .none := by
  obtain ⟨rfl, rfl⟩ | ⟨off, lanes, into, d, r, rfl, -, rfl⟩ | ⟨off, lanes, v, d, u, r, rfl, hd, hu, rfl⟩ |
    ⟨rfl, -, rfl⟩ | ⟨rfl, -, rfl⟩ | ⟨rfl, rfl⟩ := playMove_cases h
  case inr.inr.inl =>
    obtain ⟨rfl, hc⟩ := (moveClearsPv_write_iff hd).1 hm
    obtain ⟨hw, h4, reg, hr⟩ := regAt_of_clears hc
    cases hu.symm.trans (busWrite_aligned hw h4 hr)
    exact writeReg_pv_of_clears ((writeClearsPv_iff h4 hr).2 hc)
  case inr.inr.inr.inr.inr => rfl
  all_goals exact hm.elim

theorem playMove_pv_of_not_clears {s t : State} {m : HostMove} (h : s.playMove m = .next t) (hm : ¬ MoveClearsPv s m) :
    t.pv = s.pv := by
  obtain ⟨rfl, rfl⟩ | ⟨off, lanes, into, d, r, rfl, -, rfl⟩ | ⟨off, lanes, v, d, u, r, rfl, hd, hu, rfl⟩ |
    ⟨rfl, -, rfl⟩ | ⟨rfl, -, rfl⟩ | ⟨rfl, rfl⟩ := playMove_cases h
  case inr.inr.inl =>
    obtain ⟨-, ⟨rfl, -⟩ | ⟨h4, rfl, r, hr, rfl, -⟩⟩ := busWrite_cases hu
    · rfl
    · exact writeReg_pv_of_not_clears fun hc => hm ((moveClearsPv_write_iff hd).2 ⟨rfl, (writeClearsPv_iff h4 hr).1 hc⟩)
  case inr.inr.inr.inr.inr => exact absurd trivial hm
  all_goals rfl

/-! ### Steps -/

theorem moveClearsPv_beginMove (s : State) (rest : List HostMove) (m : HostMove) :
    MoveClearsPv (s.beginMove rest) m ↔ MoveClearsPv s m := by
  cases m with
  | write off lanes v => simp [MoveClearsPv, acceptedRxWrite, hostValue_congr (s.beginMove_vars rest)]
  | idle | wait | powerOn | read _ _ _ => rfl

theorem not_completing_of_host {s : State} (ht : s.turn = .host) (i : Instr) : ¬ s.completing i := by
  rintro ⟨p, hp, -⟩
  cases ht.symm.trans hp

theorem not_hostMoves_of_completion {s : State} {p : Half} (ht : s.turn = .completion p) (m : HostMove) : ¬ s.hostMoves m := by
  rintro ⟨hp, -⟩
  cases ht.symm.trans hp

theorem completing_iff {s : State} {p : Half} {i : Instr} (ht : s.turn = .completion p) (hi : decodeLatch p = .ok i)
    (j : Instr) : s.completing j ↔ i = j := by
  simp [State.completing, ht, hi]

/-- In a host turn the events of R38 are those of its move. -/
theorem pvClearingEvent_iff_of_host {s : State} (t : State) (ht : s.turn = .host) :
    PvClearingEvent s t ↔ ∃ m, s.host.head? = some m ∧ MoveClearsPv s m := by
  simp only [PvClearingEvent, not_completing_of_host ht, State.hostMoves, ht, false_and, exists_false, false_or, true_and]
  constructor
  · rintro (⟨off, v, hm, ha⟩ | hm | ⟨v, d, hm, hd, hb⟩)
    · exact ⟨_, hm, rfl, .inl ha⟩
    · exact ⟨_, hm, trivial⟩
    · exact ⟨_, hm, rfl, .inr ⟨rfl, d, hd, hb⟩⟩
  · rintro ⟨m, hm, hc⟩
    cases m with
    | write off lanes v =>
      obtain ⟨rfl, ha | ⟨rfl, d, hd, hb⟩⟩ := hc
      · exact .inl ⟨off, v, hm, ha⟩
      · exact .inr (.inr ⟨v, d, hm, hd, hb⟩)
    | powerOn => exact .inr (.inl hm)
    | idle | wait | read _ _ _ => exact hc.elim

/-- In a completing step the events of R38 are those of its operation. -/
theorem pvClearingEvent_iff_of_completing {s : State} {p : Half} {i : Instr} (t : State) (ht : s.turn = .completion p)
    (hi : decodeLatch p = .ok i) : PvClearingEvent s t ↔
      (i = .ckAppend8 .rxb ∨ i = .ckAppend16 .rxb) ∧ t.err = .none ∨ (i = .mbParse ∨ ∃ c, i = .vbParse c) ∧ t.err ≠ .none := by
  simp only [PvClearingEvent, not_hostMoves_of_completion ht, completing_iff ht hi, false_and, exists_false, false_or, or_false,
    or_and_right, exists_and_right, or_assoc]

theorem host_step_pv {s t : State} (ht : s.turn = .host) (h : step s = .next t) :
    (PvClearingEvent s t → t.pv = .none) ∧ (¬ PvClearingEvent s t → t.pv = s.pv) := by
  rw [pvClearingEvent_iff_of_host t ht]
  cases hh : s.host with
  | nil =>
    rw [step_host_nil ht hh] at h
    cases h
    simp
  | cons m rest =>
    rw [step_host_cons ht hh] at h
    simp only [List.head?_cons, Option.some.injEq, exists_eq_left', ← moveClearsPv_beginMove s rest m]
    exact ⟨playMove_pv_of_clears h, fun hm => (playMove_pv_of_not_clears h hm).trans (s.beginMove_pv rest)⟩

/-- The completion of a legal command sets PV by its operation and its error code. -/
theorem completion_step_pv {s t : State} {p : Half} {i : Instr} (ht : s.turn = .completion p) (hi : decodeLatch p = .ok i)
    (h : exec i s = .next t) :
    (PvClearingEvent s t → t.pv = .none) ∧
    (s.completing .mbParse → t.err = .none → t.pv = .modbus) ∧
    (∀ c, s.completing (.vbParse c) → t.err = .none → t.pv = .vendorB) ∧
    (¬ PvClearingEvent s t → ¬ s.completing .mbParse → (∀ c, ¬ s.completing (.vbParse c)) → t.pv = s.pv) := by
  simp only [pvClearingEvent_iff_of_completing t ht hi, completing_iff ht hi, exec_pv h]
  cases i with
  | ckAppend8 sel | ckAppend16 sel => cases sel <;> simp +contextual [pvAfter]
  | mbParse | vbParse c => simp +contextual [pvAfter]
  | _ => simp [pvAfter]

/-- Settles O51: a completing step through `pvAfter`, an illegal opcode with no event at all, a host turn through its move. -/
theorem pvChangesOnlyByTheListedEvents : Obligations.PvChangesOnlyByTheListedEvents := by
  unfold Obligations.PvChangesOnlyByTheListedEvents
  intro s t h
  obtain ⟨p, i, ht, hi, hx⟩ | ⟨p, e, ht, he, rfl⟩ | ⟨ht, -⟩ := step_cases h
  · exact completion_step_pv ht hi hx
  · have hc : ∀ i, ¬ s.completing i := by simp [State.completing, ht, he]
    have hevent : ¬ PvClearingEvent s s.completeIllegal := by
      simp [PvClearingEvent, hc, not_hostMoves_of_completion ht]
    exact ⟨fun h => absurd h hevent, fun h => absurd h (hc _), fun c h => absurd h (hc _), fun _ _ _ => rfl⟩
  · have hc := not_completing_of_host ht
    obtain ⟨hclears, hkeeps⟩ := host_step_pv ht h
    exact ⟨hclears, fun h => absurd h (hc _), fun c h => absurd h (hc _), fun h _ _ => hkeeps h⟩

end Sys2Proof.Machine
end

section
/-! PROOF. The invariant (10_state.md R37, R41, R45, R54; 20_memory.md R75): every update that a step is made of keeps it. -/

namespace Sys2Proof.Machine

/-! ### The payload that PV latches depends on RXB alone -/

/-- PV tells the truth (R37). -/
def PayloadTrue (s : State) : Prop :=
  (s.pv = .modbus → s.ModbusLatched) ∧ (s.pv = .vendorB → s.VendorBLatched)

theorem payloadTrue_of_none {s : State} (h : s.pv = .none) : PayloadTrue s := by
  simp [PayloadTrue, h]

/-- The two states hold the same frame: PV, the P_* registers, RXLEN and the bytes of RXB. -/
structure SameFrame (s t : State) : Prop where
  pv : t.pv = s.pv
  parse : t.parse = s.parse
  rxlen : t.rxlen = s.rxlen
  bytes : ∀ n < 512, t.rxByte n = s.rxByte n

theorem SameFrame.readBytes {s t : State} (h : SameFrame s t) {i n : Nat} (hn : i + n ≤ 512) :
    t.readBytes (Config.rxBase + i) n = s.readBytes (Config.rxBase + i) n :=
  State.readBytes_congr s t _ n fun j hj => by
    have := h.bytes (i + j) (by omega)
    rwa [State.rxByte, State.rxByte, ← Nat.add_assoc] at this

theorem SameFrame.modbusLatched {s t : State} (h : SameFrame s t) (hs : s.ModbusLatched) : t.ModbusLatched := by
  obtain ⟨m, hlen, htrailer⟩ := hs.trailer
  have hle : 3 + (s.rxByte 2).toNat + trailerLen m ≤ 512 := by
    have := hs.within
    have := s.rxlen.isLt
    omega
  have h0 := h.bytes 0 (by decide)
  have h1 := h.bytes 1 (by decide)
  have h2 := h.bytes 2 (by decide)
  have hbody : t.readBytes Config.rxBase _ = _ := h.readBytes (i := 0) (n := 3 + (s.rxByte 2).toNat) (by omega)
  have hsent := h.readBytes (i := 3 + (s.rxByte 2).toNat) (n := trailerLen m) hle
  exact {
    addr := by rw [h.parse, h0, hs.addr]
    func := by rw [h.parse, h1, hs.func]
    src := by rw [h.parse, hs.src]
    bcnt := by rw [h.parse, h2, hs.bcnt]
    off := by rw [h.parse, hs.off]
    len := by rw [h.parse, h2, hs.len]
    within := by rw [h.parse, h.rxlen]; exact hs.within
    trailer := ⟨m, by rw [h.parse, h2, hlen], by rw [h2, hsent, hbody, htrailer]; rfl⟩ }

theorem SameFrame.vendorBLatched {s t : State} (h : SameFrame s t) (hs : s.VendorBLatched) : t.VendorBLatched := by
  have hle := s.rxlen.isLt
  have hsix := hs.atLeastSix
  have hbody : t.readBytes Config.rxBase _ = _ := h.readBytes (i := 0) (n := s.rxlen.val - 1) (by omega)
  exact {
    atLeastSix := by rw [h.rxlen]; exact hsix
    addr := by rw [h.parse, h.bytes 0 (by decide), h.bytes 1 (by decide), hs.addr]
    src := by rw [h.parse, h.bytes 2 (by decide), h.bytes 3 (by decide), hs.src]
    func := by rw [h.parse, h.bytes 4 (by decide), hs.func]
    bcnt := by rw [h.parse, h.rxlen, hs.bcnt]
    off := by rw [h.parse, hs.off]
    len := by rw [h.parse, h.rxlen, hs.len]
    flen := by rw [h.parse, h.rxlen, hs.flen]
    checksum := by rw [h.rxlen, h.bytes _ (by omega), hbody, hs.checksum]; rfl }

theorem PayloadTrue.congr {s t : State} (hs : PayloadTrue s) (h : SameFrame s t) : PayloadTrue t :=
  ⟨fun hp => h.modbusLatched (hs.1 (h.pv ▸ hp)), fun hp => h.vendorBLatched (hs.2 (h.pv ▸ hp))⟩

theorem readBytes_setParse (s : State) (p : ParseRegs) (pv : Pv) (a n : Nat) :
    (s.setParse p pv).readBytes a n = s.readBytes a n :=
  State.readBytes_congr s _ a n fun _ _ => rfl

/-- A frame in RXB that MB_PARSE accepts, latched. -/
theorem modbusLatched_setParse {s : State} (fits : 3 + (s.rxByte 2).toNat + trailerLen s.mbck ≤ s.rxlen.val)
    (trailer : s.readBytes (Config.rxBase + (3 + (s.rxByte 2).toNat)) (trailerLen s.mbck) =
      trailerBytes s.mbck (s.readBytes Config.rxBase (3 + (s.rxByte 2).toNat))) :
    (s.setParse (mbParseRegs s (s.rxByte 2).toNat (3 + (s.rxByte 2).toNat + trailerLen s.mbck)) .modbus).ModbusLatched := by
  have hn := (s.rxByte 2).isLt
  have hl := s.rxlen.isLt
  have hbyte : (BitVec.ofNat 10 (s.rxByte 2).toNat).toNat = (s.rxByte 2).toNat := by
    rw [BitVec.toNat_ofNat]
    omega
  have hflen : (BitVec.ofNat 10 (3 + (s.rxByte 2).toNat + trailerLen s.mbck)).toNat =
      3 + (s.rxByte 2).toNat + trailerLen s.mbck := by
    rw [BitVec.toNat_ofNat]
    omega
  exact {
    addr := rfl
    func := rfl
    src := rfl
    bcnt := hbyte
    off := rfl
    len := hbyte
    within := hflen.trans_le fits
    trailer := ⟨s.mbck, hflen, by rw [readBytes_setParse, readBytes_setParse]; exact trailer⟩ }

theorem vendorBLatched_setParse {s : State} (six : 6 ≤ s.rxlen.val)
    (checksum : s.rxByte (s.rxlen.val - 1) = add8 (s.readBytes Config.rxBase (s.rxlen.val - 1))) :
    (s.setParse (vbParseRegs s s.rxlen.val) .vendorB).VendorBLatched := by
  have hl := s.rxlen.isLt
  have hdata : (BitVec.ofNat 10 (s.rxlen.val - 6)).toNat = s.rxlen.val - 6 := by
    rw [BitVec.toNat_ofNat]
    omega
  have haddr (x y : Byte) : (BitVec.ofNat 16 (leValue [x, y])).toNat = leValue [x, y] := by
    rw [BitVec.toNat_ofNat]
    exact Nat.mod_eq_of_lt ((leValue_lt [x, y]).trans_le (by simp))
  exact {
    atLeastSix := six
    addr := haddr (s.rxByte 0) (s.rxByte 1)
    src := haddr (s.rxByte 2) (s.rxByte 3)
    func := rfl
    bcnt := hdata
    off := rfl
    len := hdata
    flen := by
      change (BitVec.ofNat 10 s.rxlen.val).toNat = s.rxlen.val
      rw [BitVec.toNat_ofNat]
      omega
    checksum := by rw [readBytes_setParse]; exact checksum }

/-! ### The parts of the invariant -/

/-- PCMD is what CMD shows, with at least one turn to go (R25, R54). -/
def CommandLatched (s : State) : Prop :=
  ∀ p left, s.engine = .running p left → p = s.cmd ∧ 1 ≤ left

theorem commandLatched_of_idle {s : State} (h : s.engine = .idle) : CommandLatched s := by
  simp [CommandLatched, h]

theorem inv_iff (s : State) : s.Inv ↔
    Memory.wf s.mem = true ∧ keysRising 0 s.vars = true ∧ CommandLatched s ∧ PayloadTrue s ∧ DecodeSound s.slots s.decInfo :=
  ⟨fun h => ⟨h.memForm, h.varsForm, h.latched, ⟨h.modbus, h.vendorB⟩, ⟨h.slots, h.decIndex, h.decFailed⟩⟩,
    fun ⟨hmem, hvars, hcmd, hpay, hdec⟩ => ⟨hmem, hvars, hcmd, hpay.1, hpay.2, hdec.sound, hdec.index, hdec.failed⟩⟩

/-- A block with nothing in flight, no payload and no field values meets the invariant over any well-formed buffers. -/
theorem inv_of_cleared {s : State} (hmem : Memory.wf s.mem = true) (hvars : keysRising 0 s.vars = true)
    (hengine : s.engine = .idle) (hpv : s.pv = .none) (hslots : s.slots = State.reset.slots) (hinfo : s.decInfo = DecInfo.zero) :
    s.Inv := by
  refine (inv_iff s).2 ⟨hmem, hvars, commandLatched_of_idle hengine, payloadTrue_of_none hpv, ?_⟩
  rw [hslots, hinfo]
  exact ⟨fun k => emptyWork_slots k ▸ Slot.empty_sound, fun _ => rfl, fun _ => emptyWork_slots⟩

/-- Settles O52: reset is a cleared block, and the empty program is sound. -/
theorem resetMeetsTheInvariant : Obligations.ResetMeetsTheInvariant :=
  ⟨inv_of_cleared wf_reset rfl rfl rfl rfl rfl, rfl⟩

theorem State.Inv.softReset {s : State} (hs : s.Inv) : s.softReset.Inv :=
  inv_of_cleared hs.memForm hs.varsForm rfl rfl rfl rfl

theorem State.Inv.powerCycle {s : State} (hs : s.Inv) : s.powerCycle.Inv :=
  inv_of_cleared wf_reset hs.varsForm rfl rfl rfl rfl

/-- The two states agree on what the invariant says of the host, the command in flight and the field values. -/
structure SameControl (s t : State) : Prop where
  vars : t.vars = s.vars
  engine : t.engine = s.engine
  cmd : t.cmd = s.cmd
  slots : t.slots = s.slots
  decInfo : t.decInfo = s.decInfo

theorem State.Inv.payload {s : State} (hs : s.Inv) : PayloadTrue s :=
  ⟨hs.modbus, hs.vendorB⟩

/-- An update of the buffers and of the payload keeps the invariant if its new payload is true. -/
theorem State.Inv.of_payload {s t : State} (hs : s.Inv) (h : SameControl s t) (hmem : Memory.wf t.mem = true)
    (hpay : PayloadTrue t) : t.Inv := by
  obtain ⟨-, hvars, hcmd, -, hdec⟩ := (inv_iff s).1 hs
  refine (inv_iff t).2 ⟨hmem, h.vars ▸ hvars, ?_, hpay, ?_⟩
  · unfold CommandLatched
    rwa [h.engine, h.cmd]
  · rwa [h.slots, h.decInfo]

/-- The two states agree on the buffers and on the payload that PV latches. -/
structure SamePayload (s t : State) : Prop where
  mem : t.mem = s.mem
  bufDraw : t.bufDraw = s.bufDraw
  rxlen : t.rxlen = s.rxlen
  parse : t.parse = s.parse
  pv : t.pv = s.pv

theorem SamePayload.frame {s t : State} (h : SamePayload s t) : SameFrame s t :=
  ⟨h.pv, h.parse, h.rxlen, fun _ _ => State.byteAt_congr s t _ h.mem h.bufDraw⟩

/-- An update of nothing that the invariant speaks of. -/
theorem State.Inv.congr {s t : State} (hs : s.Inv) (h : SameControl s t) (hp : SamePayload s t) : t.Inv :=
  hs.of_payload h (hp.mem ▸ hs.memForm) (hs.payload.congr hp.frame)

/-! ### Operations -/

theorem wf_writeCells_sel {m : Memory} (hm : Memory.wf m = true) (sel : Sel) {i : Nat} {bs : List Byte}
    (fits : i + bs.length ≤ 512) : Memory.wf (writeCells m (selBase sel + i) bs) = true := by
  apply wf_writeCells m _ bs hm
  · cases sel <;> simp only [selBase, Config.rxBase, Config.txBase] <;> omega
  · cases sel <;> simp only [selBase, Config.rxBase, Config.txBase, Config.windowBytes] <;> omega

/-- A write of TXB leaves the bytes of RXB alone. -/
theorem rxByte_of_writeTx {s t : State} {i : Nat} {bs : List Byte} (hmem : t.mem = writeCells s.mem (Config.txBase + i) bs)
    (hdraw : t.bufDraw = s.bufDraw) (n : Nat) (hn : n < 512) : t.rxByte n = s.rxByte n := by
  have ht := State.byteAt_congr (s.writeBytes (Config.txBase + i) bs) t (Config.rxBase + n) hmem hdraw
  rwa [State.byteAt_writeBytes, dif_neg (by simp only [Config.txBase, Config.rxBase]; omega)] at ht

/-- A write of TXB keeps the frame in RXB, and so the invariant. -/
theorem State.Inv.writeTx {s t : State} (hs : s.Inv) {i : Nat} {bs : List Byte} (fits : i + bs.length ≤ 512)
    (hmem : t.mem = writeCells s.mem (Config.txBase + i) bs) (h : SameControl s t)
    (hp : SamePayload s { t with mem := s.mem }) : t.Inv :=
  hs.of_payload h (hmem ▸ wf_writeCells_sel hs.memForm .txb fits)
    (hs.payload.congr ⟨hp.pv, hp.parse, hp.rxlen, rxByte_of_writeTx hmem hp.bufDraw⟩)

/-- A write of RXB clears PV, which leaves nothing to be true. -/
theorem State.Inv.writeRx {s t : State} (hs : s.Inv) {i : Nat} {bs : List Byte} (fits : i + bs.length ≤ 512)
    (hmem : t.mem = writeCells s.mem (Config.rxBase + i) bs) (h : SameControl s t) (hpv : t.pv = .none) : t.Inv :=
  hs.of_payload h (hmem ▸ wf_writeCells_sel hs.memForm .rxb fits) (payloadTrue_of_none hpv)

theorem State.Inv.append {s : State} (hs : s.Inv) {sel : Sel} {bs : List Byte}
    (fits : (s.selLen sel).val + bs.length ≤ 512) : (s.append sel bs).Inv := by
  cases sel
  case rxb => exact hs.writeRx fits rfl ⟨rfl, rfl, rfl, rfl, rfl⟩ rfl
  case txb => exact hs.writeTx fits rfl ⟨rfl, rfl, rfl, rfl, rfl⟩ ⟨rfl, rfl, rfl, rfl, rfl⟩

theorem State.Inv.finish {s : State} (hs : s.Inv) (e : Err) (b : Bool) (w : Word) : (s.finish e b w).Inv := by
  obtain ⟨hmem, hvars, -, hpay, hdec⟩ := (inv_iff s).1 hs
  exact (inv_iff _).2 ⟨hmem, hvars, commandLatched_of_idle rfl, hpay.congr ⟨rfl, rfl, rfl, fun _ _ => rfl⟩, hdec⟩

theorem OpWrites.inv {s u : State} (h : OpWrites s u) (hs : s.Inv) : u.Inv := by
  have control (p pv) : SameControl s (s.setParse p pv) := ⟨rfl, rfl, rfl, rfl, rfl⟩
  cases h with
  | nothing => exact hs
  | append sel bs fits => exact hs.append fits
  | frame bs fits =>
    exact hs.writeTx (i := 0) (by omega) rfl ⟨rfl, rfl, rfl, rfl, rfl⟩ ⟨rfl, rfl, rfl, rfl, rfl⟩
  | failedParse => exact hs.of_payload (control _ _) hs.memForm (payloadTrue_of_none rfl)
  | modbus fits trailer =>
    exact hs.of_payload (control _ _) hs.memForm ⟨fun _ => modbusLatched_setParse fits trailer, nofun⟩
  | vendorB six checksum =>
    exact hs.of_payload (control _ _) hs.memForm ⟨nofun, fun _ => vendorBLatched_setParse six checksum⟩
  | decode slots info sound =>
    obtain ⟨hmem, hvars, hcmd, hpay, -⟩ := (inv_iff s).1 hs
    exact (inv_iff _).2 ⟨hmem, hvars, hcmd, hpay.congr ⟨rfl, rfl, rfl, fun _ _ => rfl⟩, sound⟩
  | classCode c => exact hs.congr ⟨rfl, rfl, rfl, rfl, rfl⟩ ⟨rfl, rfl, rfl, rfl, rfl⟩

theorem exec_inv {i : Instr} {s t : State} (hs : s.Inv) (h : exec i s = .next t) : t.Inv := by
  obtain ⟨u, b, w, ht, hu, -⟩ := exec_cases h
  rw [ht]
  exact (hu.inv hs).finish _ b w

/-! ### Register writes -/

theorem State.Inv.writeStatus {s : State} (hs : s.Inv) (d : Word) : (s.writeStatus d).Inv := by
  apply hs.congr <;> constructor <;> simp

theorem State.Inv.writeCtrl {s : State} (hs : s.Inv) (d : Word) : (s.writeCtrl d).Inv := by
  unfold State.writeCtrl
  split
  · exact hs.softReset
  · exact hs.congr ⟨rfl, rfl, rfl, rfl, rfl⟩ ⟨rfl, rfl, rfl, rfl, rfl⟩

theorem State.Inv.pushRx {s : State} (hs : s.Inv) (d : Word) : (s.pushRx d).Inv := by
  unfold State.pushRx
  split
  case isTrue hl => exact hs.append hl
  case isFalse => exact hs.congr ⟨rfl, rfl, rfl, rfl, rfl⟩ ⟨rfl, rfl, rfl, rfl, rfl⟩

theorem State.Inv.accept {s : State} (hs : s.Inv) (w : Word) : (s.accept w).Inv := by
  obtain ⟨hmem, hvars, -, hpay, hdec⟩ := (inv_iff s).1 hs
  refine (inv_iff _).2 ⟨hmem, hvars, ?_, hpay.congr ⟨rfl, rfl, rfl, fun _ _ => rfl⟩, hdec⟩
  rintro p left h
  cases h
  exact ⟨rfl, Nat.le_add_left 1 _⟩

theorem State.Inv.writeIdle {s : State} (hs : s.Inv) (d : Word) (r : Reg) : (s.writeIdle d r).Inv := by
  cases r
  case ctrl => exact hs.writeCtrl d
  case cmd => exact hs.accept d
  case status => exact hs.writeStatus d
  case rxpush => exact hs.pushRx d
  case rxlen => exact hs.of_payload ⟨rfl, rfl, rfl, rfl, rfl⟩ hs.memForm (payloadTrue_of_none rfl)
  case rxb w =>
    have hw := w.isLt
    exact hs.writeRx (i := 4 * w.val) (bs := lanesOf d) (by simp [lanesOf]; omega) rfl ⟨rfl, rfl, rfl, rfl, rfl⟩ rfl
  case txb w =>
    have hw := w.isLt
    exact hs.writeTx (i := 4 * w.val) (bs := lanesOf d) (by simp [lanesOf]; omega) rfl ⟨rfl, rfl, rfl, rfl, rfl⟩
      ⟨rfl, rfl, rfl, rfl, rfl⟩
  all_goals exact hs.congr ⟨rfl, rfl, rfl, rfl, rfl⟩ ⟨rfl, rfl, rfl, rfl, rfl⟩

theorem State.Inv.writeBusy {s : State} (hs : s.Inv) (d : Word) (r : Reg) : (s.writeBusy d r).Inv := by
  rw [writeBusy_eq]
  split
  · exact hs.writeStatus d
  split
  · exact hs.congr ⟨rfl, rfl, rfl, rfl, rfl⟩ ⟨rfl, rfl, rfl, rfl, rfl⟩
  split
  · exact hs.softReset
  · exact hs.congr ⟨rfl, rfl, rfl, rfl, rfl⟩ ⟨rfl, rfl, rfl, rfl, rfl⟩

theorem State.Inv.writeReg {s : State} (hs : s.Inv) (d : Word) (r : Reg) : (s.writeReg d r).Inv := by
  unfold State.writeReg
  split
  · exact hs.writeBusy d r
  · exact hs.writeIdle d r

/-! ### Steps -/

theorem State.Inv.tick {s : State} (hs : s.Inv) (ht : s.turn = .host) : s.tick.Inv := by
  obtain ⟨hmem, hvars, hcmd, hpay, hdec⟩ := (inv_iff s).1 hs
  unfold State.tick
  split
  case h_1 => exact hs
  case h_2 p left he =>
    have hleft : 1 < left := by simpa [State.turn, he] using ht
    refine (inv_iff _).2 ⟨hmem, hvars, ?_, hpay.congr ⟨rfl, rfl, rfl, fun _ _ => rfl⟩, hdec⟩
    rintro p' left' h
    cases h
    exact ⟨(hcmd p left he).1, by omega⟩

theorem State.Inv.beginMove {s : State} (hs : s.Inv) (ht : s.turn = .host) (rest : List HostMove) :
    (s.beginMove rest).Inv :=
  (hs.tick ht).congr ⟨rfl, rfl, rfl, rfl, rfl⟩ ⟨rfl, rfl, rfl, rfl, rfl⟩

theorem playMove_inv {s t : State} {m : HostMove} (hs : s.Inv) (h : s.playMove m = .next t) : t.Inv := by
  obtain ⟨-, rfl⟩ | ⟨off, lanes, into, d, r, -, -, rfl⟩ | ⟨off, lanes, v, d, u, r, -, -, hu, rfl⟩ | ⟨-, -, rfl⟩ |
    ⟨-, -, rfl⟩ | ⟨-, rfl⟩ := playMove_cases h
  case inl => exact hs
  case inr.inl =>
    obtain ⟨hmem, hvars, hcmd, hpay, hdec⟩ := (inv_iff s).1 hs
    exact (inv_iff _).2 ⟨hmem, keysRising_insertAt s.vars 0 into d (Nat.zero_le into) hvars, hcmd,
      hpay.congr ⟨rfl, rfl, rfl, fun _ _ => rfl⟩, hdec⟩
  case inr.inr.inl =>
    have hinv : u.Inv := by
      obtain ⟨-, ⟨rfl, -⟩ | ⟨-, -, reg, -, rfl, -⟩⟩ := busWrite_cases hu
      · exact hs
      · exact hs.writeReg d reg
    exact hinv.congr ⟨rfl, rfl, rfl, rfl, rfl⟩ ⟨rfl, rfl, rfl, rfl, rfl⟩
  case inr.inr.inr.inr.inr => exact hs.powerCycle
  all_goals exact hs.congr ⟨rfl, rfl, rfl, rfl, rfl⟩ ⟨rfl, rfl, rfl, rfl, rfl⟩

/-- Settles O53: an operation by what it writes, a host turn by the register its move reaches. -/
theorem stepKeepsTheInvariant : Obligations.StepKeepsTheInvariant := by
  unfold Obligations.StepKeepsTheInvariant
  intro s t hs h
  obtain ⟨p, i, -, -, hx⟩ | ⟨p, e, -, -, rfl⟩ | ⟨ht, hturn⟩ := step_cases h
  · exact exec_inv hs hx
  · exact hs.finish _ _ _
  · obtain ⟨-, rfl⟩ | ⟨m, rest, -, hm⟩ := hostTurn_cases hturn
    · exact hs.tick ht
    · exact playMove_inv (hs.beginMove ht rest) hm

end Sys2Proof.Machine
end

section
/-! PROOF. Bus words as fields placed at bit positions: what a mask keeps of a word, and each bit of STATUS, DEC_INFO and FV_VALID
(10_state.md R20-R51). -/

namespace Sys2Proof.Machine

theorem getLsbD_placed {n : Nat} (v : BitVec n) (lo : Nat) {k : Nat} (hk : k < 32) :
    (placed v lo).getLsbD k = (decide (lo ≤ k) && v.getLsbD (k - lo)) := by
  have : k - lo < 32 := by omega
  simp only [placed, BitVec.getLsbD_shiftLeft, BitVec.getLsbD_setWidth, hk, this]
  by_cases h : lo ≤ k <;> simp [h]

theorem getLsbD_flagAt (b : Bool) (lo : Nat) {k : Nat} (hk : k < 32) :
    (flagAt b lo).getLsbD k = (decide (k = lo) && b) := by
  rw [flagAt, getLsbD_placed _ _ hk, BitVec.getLsbD_ofBool]
  grind

/-- The bits that a field of width `n` at `lo` takes. -/
def fieldMask (lo n : Nat) : Word :=
  placed (BitVec.allOnes n) lo

theorem getLsbD_fieldMask (lo n : Nat) {k : Nat} (hk : k < 32) :
    (fieldMask lo n).getLsbD k = decide (lo ≤ k ∧ k < lo + n) := by
  rw [fieldMask, getLsbD_placed _ _ hk, BitVec.getLsbD_allOnes]
  grind

/-- A field of a word, placed back where it was taken. -/
theorem placed_extractLsb' (w : Word) (lo n : Nat) : placed (w.extractLsb' lo n) lo = w &&& fieldMask lo n := by
  refine BitVec.eq_of_getLsbD_eq fun k hk => ?_
  rw [BitVec.getLsbD_and, getLsbD_placed _ _ hk, getLsbD_fieldMask _ _ hk, BitVec.getLsbD_extractLsb']
  grind

theorem flagAt_getLsbD (w : Word) (lo : Nat) : flagAt (w.getLsbD lo) lo = w &&& fieldMask lo 1 := by
  refine BitVec.eq_of_getLsbD_eq fun k hk => ?_
  rw [BitVec.getLsbD_and, getLsbD_flagAt _ _ hk, getLsbD_fieldMask _ _ hk]
  grind

/-- A register of `n` bits reads back the low bits of what was written. -/
theorem setWidth_setWidth_eq_and (w : Word) {n : Nat} (hn : n ≤ 32) : (w.setWidth n).setWidth 32 = w &&& fieldMask 0 n := by
  rw [← placed_extractLsb', BitVec.setWidth_eq_extractLsb' hn]
  simp [placed]

/-- A mask keeps of a flag what it has at the flag's bit. -/
theorem flagAt_and (b : Bool) (lo : Nat) (m : Word) : flagAt b lo &&& m = flagAt (b && m.getLsbD lo) lo := by
  refine BitVec.eq_of_getLsbD_eq fun k hk => ?_
  rw [BitVec.getLsbD_and, getLsbD_flagAt _ _ hk, getLsbD_flagAt _ _ hk]
  grind

/-! ### Table words and CTRL -/

theorem kindCode_kindOfCode : ∀ v : BitVec 2, kindCode (kindOfCode v) = v := by decide

theorem fdescCtlWord_fdescWithCtl (d : FDesc) (w : Word) : fdescCtlWord (fdescWithCtl d w) = w &&& 0x01FF01FF#32 := by
  have hslot : BitVec.ofNat 5 (w.extractLsb' 4 5).toFin.val = w.extractLsb' 4 5 := by
    rw [BitVec.val_toFin, BitVec.ofNat_toNat, BitVec.setWidth_eq]
  simp only [fdescCtlWord, fdescWithCtl, kindCode_kindOfCode, hslot, placed_extractLsb', ← BitVec.and_or_distrib_left]
  rfl

theorem cmdtWord_cmdtOfWord (w : Word) : cmdtWord (cmdtOfWord w) = w &&& 0x80FFFFFF#32 := by
  simp only [cmdtWord, cmdtOfWord, placed_extractLsb', flagAt_getLsbD, ← BitVec.and_or_distrib_left]
  rfl

/-! ### STATUS -/

theorem statusWord_writeStatus (s : State) (d : Word) :
    (s.writeStatus d).statusWord = s.statusWord &&& ~~~(d &&& 0x0000001E#32) := by
  have hbusy : (s.writeStatus d).busy = s.busy := by simp [State.busy]
  have herr : placed (errCode s.err) 8 &&& ~~~(d &&& 0x0000001E#32) = placed (errCode s.err) 8 := by
    have hmask : ∀ k < 32, 8 ≤ k → (0x0000001E#32).getLsbD k = false := by decide
    refine BitVec.eq_of_getLsbD_eq fun k hk => ?_
    rw [BitVec.getLsbD_and, BitVec.getLsbD_not, BitVec.getLsbD_and, getLsbD_placed _ _ hk]
    grind
  simp only [State.statusWord, hbusy, State.writeStatus_done, State.writeStatus_ovr, State.writeStatus_wbz,
    State.writeStatus_rxovf, State.writeStatus_res, State.writeStatus_err, BitVec.and_or_distrib_right, herr, flagAt_and]
  simp

/-! ### DEC_INFO -/

theorem getLsbD_decInfoWord (d : DecInfo) {k : Nat} (hk : k < 32) :
    (decInfoWord d).getLsbD k =
      ((reasonCode d.reason).getLsbD k || decide (8 ≤ k) && d.index.getLsbD (k - 8) || decide (k = 16) && d.odd ||
        decide (k = 17) && d.trunc) := by
  simp only [decInfoWord, BitVec.getLsbD_or, getLsbD_placed _ _ hk, getLsbD_flagAt _ _ hk, Nat.zero_le, decide_true,
    Bool.true_and, Nat.sub_zero]

/-- The fields of DEC_INFO in their bits, every other bit 0 (R41). -/
theorem decInfoWord_fields (d : DecInfo) :
    (decInfoWord d).extractLsb' 0 3 = reasonCode d.reason ∧ (decInfoWord d).extractLsb' 3 5 = 0#5 ∧
    (decInfoWord d).extractLsb' 8 5 = d.index ∧ (decInfoWord d).extractLsb' 13 3 = 0#3 ∧
    (decInfoWord d).getLsbD 16 = d.odd ∧ (decInfoWord d).getLsbD 17 = d.trunc ∧ (decInfoWord d).extractLsb' 18 14 = 0#14 := by
  have hreason : ∀ k, 3 ≤ k → (reasonCode d.reason).getLsbD k = false := fun k hk => BitVec.getLsbD_of_ge _ _ hk
  have hindex : ∀ k, 5 ≤ k → d.index.getLsbD k = false := fun k hk => BitVec.getLsbD_of_ge _ _ hk
  have field {n : Nat} (lo : Nat) (v : BitVec n)
      (h : ∀ j < n, (decInfoWord d).getLsbD (lo + j) = v.getLsbD j) : (decInfoWord d).extractLsb' lo n = v :=
    BitVec.eq_of_getLsbD_eq fun j hj => by rw [BitVec.getLsbD_extractLsb', h j hj]; simp [hj]
  refine ⟨field 0 _ fun j hj => ?_, field 3 _ fun j hj => ?_, field 8 _ fun j hj => ?_, field 13 _ fun j hj => ?_, ?_, ?_,
    field 18 _ fun j hj => ?_⟩
  all_goals
    rw [getLsbD_decInfoWord _ (by omega)]
    grind

/-! ### FV_VALID -/

theorem testBit_bitsValue (bs : List Bool) (k : Nat) : (bitsValue bs).testBit k = bs.getD k false := by
  induction bs generalizing k with
  | nil => simp [bitsValue]
  | cons b bs ih =>
    cases k with
    | zero => cases b <;> simp [bitsValue, Nat.testBit_zero]
    | succ k =>
      have hhalf : (b.toNat + 2 * bitsValue bs) / 2 = bitsValue bs := by have := b.toNat_lt; omega
      simp [bitsValue, Nat.testBit_succ, hhalf, ih]

theorem getLsbD_fvValidWord (s : State) (k : Fin 32) : s.fvValidWord.getLsbD k.val = s.slots[k].valid := by
  rw [State.fvValidWord, BitVec.getLsbD_ofNat, testBit_bitsValue]
  simp

end Sys2Proof.Machine
end

section
/-! PROOF. The registers over the bus: the write lock, STATUS, CMD, CTRL, the lengths, RXPUSH, and what the output registers read
(10_state.md R22-R57). -/

namespace Sys2Proof.Machine

/-- Settles O7: every operation ends in a completion of an update inside the operations' registers. -/
theorem everyOperationCompletesAndKeepsOtherRegisters : Obligations.EveryOperationCompletesAndKeepsOtherRegisters := by
  unfold Obligations.EveryOperationCompletesAndKeepsOtherRegisters
  intro i s
  obtain ⟨u, e, b, w, hx, hu, hres⟩ := exec_finishes i s
  exact ⟨u.finish e b w, hx, rfl, rfl, hres, hu.finish e b w⟩

/-- Settles O40: the offset names a register, and `writeBusy_eq` says what the lock lets through. -/
theorem writeLockWhileBusy : Obligations.WriteLockWhileBusy := by
  unfold Obligations.WriteLockWhileBusy
  intro s off d hb hw h4 hr
  obtain ⟨r, hreg⟩ := regAt_of_not_reserved hw h4 hr
  have hoff (r' : Reg) : off = offsetOf r' ↔ r = r' := by
    rw [← regAt_eq_some_iff h4, hreg, Option.some.injEq]
  have hstatus : off = 0x00C ↔ r = .status := hoff .status
  have hcmd : off = 0x008 ↔ r = .cmd := hoff .cmd
  have hctrl : off = 0x004 ↔ r = .ctrl := hoff .ctrl
  rw [busWrite_aligned hw h4 hreg, writeReg_of_busy hb, writeBusy_eq]
  simp only [hstatus, hcmd, hctrl]

/-- Settles O42: a STATUS write reaches `writeStatus`, BUSY or not. -/
theorem statusWriteClearsItsBits : Obligations.StatusWriteClearsItsBits := by
  unfold Obligations.StatusWriteClearsItsBits
  intro s t d h
  cases (s.busWrite_offsetOf .status d).symm.trans h
  rw [writeReg_status]
  refine ⟨statusWord_writeStatus s d, ?_⟩
  unfold State.writeStatus
  cases d.getLsbD 1 <;> rfl

/-- Settles O41: acceptance, with the countdown that its draw gives. -/
theorem cmdWriteIssuesACommand : Obligations.CmdWriteIssuesACommand := by
  unfold Obligations.CmdWriteIssuesACommand
  intro s w hi
  refine ⟨s.accept w, Config.opLatency s.draws (w.setWidth 16), ?_, Nat.le_add_left 1 _, rfl, rfl, ?_⟩
  · rw [← show s.writeReg w .cmd = s.accept w from writeReg_of_idle hi w .cmd]
    exact s.busWrite_offsetOf .cmd w
  · have hread : (s.accept w).readReg .cmd = w &&& 0x0000FFFF#32 := setWidth_setWidth_eq_and w (by decide)
    rw [← hread]
    exact (s.accept w).busRead_offsetOf .cmd

theorem writeReg_ctrl_of_stores {s : State} (hi : s.engine = .idle) {d : Word} (hd : d.getLsbD 2 = false) :
    s.writeReg d .ctrl = { s with ie := d.getLsbD 0, mbck := d.getLsbD 1 } := by
  rw [writeReg_of_idle hi]
  exact if_neg (by simp only [hd, Bool.false_eq_true, not_false_eq_true])

theorem ctrlWord_of_stored {s : State} {d : Word} (hie : s.ie = d.getLsbD 0) (hmbck : s.mbck = d.getLsbD 1) :
    s.ctrlWord = d &&& 0x00000003#32 := by
  simp only [State.ctrlWord, hie, hmbck, flagAt_getLsbD, ← BitVec.and_or_distrib_left]
  rfl

/-- Settles O48: data bit 2 alone says whether a CTRL write is a soft reset. -/
theorem ctrlWriteStoresOrSoftResets : Obligations.CtrlWriteStoresOrSoftResets := by
  unfold Obligations.CtrlWriteStoresOrSoftResets
  refine fun s d => ⟨fun hd => ?_, fun hi hd => ?_⟩ <;> have hw := s.busWrite_offsetOf .ctrl d
  · rw [writeReg_ctrl_of_srst s hd] at hw
    exact ⟨s.softReset, hw, rfl, fun _ => rfl⟩
  · rw [writeReg_ctrl_of_stores hi hd] at hw
    refine ⟨_, hw, rfl, ?_⟩
    rw [← ctrlWord_of_stored (s := { s with ie := d.getLsbD 0, mbck := d.getLsbD 1 }) rfl rfl]
    exact State.busRead_offsetOf _ .ctrl

/-! ### RXLEN, TXLEN, RXPUSH -/

theorem lenOfData_val (d : Word) : (lenOfData d).val = min (d.toNat % 1024) 512 := by
  simp [lenOfData, clampLen]

/-- Settles O44: both writes store `lenOfData`. -/
theorem lengthRegistersClamp : Obligations.LengthRegistersClamp := by
  unfold Obligations.LengthRegistersClamp
  refine ⟨rfl, rfl, fun s => ⟨Nat.le_of_lt_succ s.rxlen.isLt, Nat.le_of_lt_succ s.txlen.isLt⟩, fun s d hi => ⟨?_, ?_⟩⟩
  · have hw := s.busWrite_offsetOf .rxlen d
    rw [writeReg_of_idle hi] at hw
    exact ⟨_, hw, rfl, lenOfData_val d, State.busRead_offsetOf _ .rxlen⟩
  · have hw := s.busWrite_offsetOf .txlen d
    rw [writeReg_of_idle hi] at hw
    exact ⟨_, hw, rfl, lenOfData_val d, State.busRead_offsetOf _ .txlen⟩

theorem pushRx_of_room {s : State} (h : s.rxlen.val < 512) (d : Word) : s.pushRx d = s.append .rxb [d.setWidth 8] :=
  if_pos h

theorem pushRx_of_full {s : State} (h : s.rxlen.val = 512) (d : Word) : s.pushRx d = { s with rxovf := true } :=
  if_neg (by simp [h, Config.bufBytes])

theorem byteAt_append_singleton (s : State) (sel : Sel) (b : Byte) (a : Nat) :
    (s.append sel [b]).byteAt a = if a = selBase sel + (s.selLen sel).val then b else s.byteAt a := by
  rw [State.byteAt_append]
  by_cases h : a = selBase sel + (s.selLen sel).val
  · simp [h]
  · rw [if_neg h, dif_neg (by rw [List.length_singleton]; omega)]

/-- Settles O45: room for a byte is an append of one, no room is RXOVF. -/
theorem rxPushAppendsAByte : Obligations.RxPushAppendsAByte := by
  unfold Obligations.RxPushAppendsAByte
  intro s d hi
  have hw := s.busWrite_offsetOf .rxpush d
  rw [writeReg_of_idle hi] at hw
  change s.busWrite 0x018 0xF#4 d = .ok (s.pushRx d, .okay) at hw
  refine ⟨fun hl => ?_, fun hl => ?_, s.busRead_offsetOf .rxpush⟩
  · rw [pushRx_of_room hl] at hw
    refine ⟨_, hw, rfl, Nat.min_eq_left hl, ?_, fun a ha => ?_⟩
    · have hbyte : (s.append .rxb [d.setWidth 8]).rxByte s.rxlen.val = d.setWidth 8 :=
        (byteAt_append_singleton s .rxb _ _).trans (if_pos rfl)
      rw [hbyte, BitVec.toNat_setWidth]
    · exact (byteAt_append_singleton s .rxb _ a).trans (if_neg ha)
  · rwa [pushRx_of_full hl] at hw

/-! ### The output registers -/

/-- Settles O60: every output register stands at its offset, DEC_INFO and FV_VALID bit by bit. -/
theorem outputRegistersReadTheirFields : Obligations.OutputRegistersReadTheirFields := by
  unfold Obligations.OutputRegistersReadTheirFields
  refine ⟨fun s => ⟨s.busRead_offsetOf .result, s.busRead_offsetOf .pAddr, s.busRead_offsetOf .pFunc, s.busRead_offsetOf .pSrc,
    s.busRead_offsetOf .pBcnt, s.busRead_offsetOf .pOff, s.busRead_offsetOf .pLen, s.busRead_offsetOf .pFlen,
    s.busRead_offsetOf .pstate, s.busRead_offsetOf .scClass, ⟨_, s.busRead_offsetOf .decInfo, decInfoWord_fields s.decInfo⟩,
    ⟨_, s.busRead_offsetOf .fvValid, getLsbD_fvValidWord s⟩, fun k => s.busRead_offsetOf (.fvNum k),
    fun k => s.busRead_offsetOf (.fvDen k)⟩, ?_⟩
  decide

end Sys2Proof.Machine
end

section
/-! PROOF. Build inputs, SC_IN and the tables read back what was written, and no other register reads differently
(10_state.md R30-R35, R39, R48, R49, R51). -/

namespace Sys2Proof.Machine

/-- The registers and table words that `inputOffset` names. -/
inductive IsInput : Reg → Prop
  | mbSlave : IsInput .mbSlave
  | mbFunc : IsInput .mbFunc
  | mbStart : IsInput .mbStart
  | mbCount : IsInput .mbCount
  | vbDest : IsInput .vbDest
  | vbSrc : IsInput .vbSrc
  | scIn : IsInput .scIn
  | fdescCtl (i : Fin 32) : IsInput (.fdescCtl i)
  | fdescScale (i : Fin 32) : IsInput (.fdescScale i)
  | cmdt (j : Fin 16) : IsInput (.cmdt j)

theorem exists_isInput {off : Nat} (h : inputOffset off) : ∃ r, IsInput r ∧ offsetOf r = off := by
  obtain hnamed | ⟨hlo, hhi, h4⟩ := h
  · simp only [List.mem_cons, List.not_mem_nil, or_false] at hnamed
    obtain rfl | rfl | rfl | rfl | rfl | rfl | rfl := hnamed
    · exact ⟨_, .mbSlave, rfl⟩
    · exact ⟨_, .mbFunc, rfl⟩
    · exact ⟨_, .mbStart, rfl⟩
    · exact ⟨_, .mbCount, rfl⟩
    · exact ⟨_, .vbDest, rfl⟩
    · exact ⟨_, .vbSrc, rfl⟩
    · exact ⟨_, .scIn, rfl⟩
  · by_cases htable : off < 0x300
    · by_cases h8 : off % 8 = 0
      · exact ⟨_, .fdescCtl ⟨(off - 0x200) / 8, by omega⟩, by simp only [offsetOf]; omega⟩
      · exact ⟨_, .fdescScale ⟨(off - 0x200) / 8, by omega⟩, by simp only [offsetOf]; omega⟩
    · exact ⟨_, .cmdt ⟨(off - 0x300) / 4, by omega⟩, by simp only [offsetOf]; omega⟩

theorem keptBits_fdescCtl (i : Fin 32) : keptBits (offsetOf (.fdescCtl i)) = 0x01FF01FF#32 := by
  revert i; decide

theorem keptBits_fdescScale (i : Fin 32) : keptBits (offsetOf (.fdescScale i)) = 0x0000FFFF#32 := by
  revert i; decide

theorem keptBits_cmdt (j : Fin 16) : keptBits (offsetOf (.cmdt j)) = 0x80FFFFFF#32 := by
  revert j; decide

theorem readReg_writeIdle_self (s : State) (d : Word) {r : Reg} (hr : IsInput r) :
    (s.writeIdle d r).readReg r = d &&& keptBits (offsetOf r) := by
  cases hr with
  | mbSlave | mbFunc | mbStart | mbCount | vbDest | vbSrc => exact setWidth_setWidth_eq_and d (by decide)
  | scIn => exact BitVec.and_allOnes.symm
  | fdescCtl i =>
    rw [keptBits_fdescCtl, ← fdescCtlWord_fdescWithCtl s.fdesc[i] d]
    simp [State.writeIdle, State.readReg]
  | fdescScale i =>
    rw [keptBits_fdescScale, ← show _ = d &&& 0x0000FFFF#32 from setWidth_setWidth_eq_and d (n := 16) (by decide)]
    simp [State.writeIdle, State.readReg, fdescWithScale]
  | cmdt j =>
    rw [keptBits_cmdt, ← cmdtWord_cmdtOfWord]
    simp [State.writeIdle, State.readReg]

/-- Setting an entry changes nothing that `f` sees of another one, or of itself where `f` does not see the change. -/
theorem apply_getElem_set {α β : Type} {n : Nat} (f : α → β) (v : Vector α n) (i j : Fin n) (x : α)
    (h : i = j → f x = f v[j]) : f (v.set i x)[j] = f v[j] := by
  by_cases hij : i = j
  · rw [← h hij]
    simp [hij]
  · have hval : i.val ≠ j.val := fun hv => hij (Fin.ext hv)
    simp [Vector.getElem_set_ne, hval]

theorem readReg_writeIdle_of_ne (s : State) (d : Word) {r r' : Reg} (hr : IsInput r) (hne : r' ≠ r) :
    (s.writeIdle d r).readReg r' = s.readReg r' := by
  cases hr with
  | fdescCtl i =>
    cases r' with
    | fdescCtl j => exact apply_getElem_set fdescCtlWord s.fdesc i j _ fun hij => absurd (congrArg Reg.fdescCtl hij.symm) hne
    | fdescScale j =>
      refine apply_getElem_set (fun e => e.scale.setWidth 32) s.fdesc i j (fdescWithCtl s.fdesc[i] d) fun hij => ?_
      rw [← hij]
      rfl
    | _ => rfl
  | fdescScale i =>
    cases r' with
    | fdescCtl j =>
      refine apply_getElem_set fdescCtlWord s.fdesc i j (fdescWithScale s.fdesc[i] d) fun hij => ?_
      rw [← hij]
      rfl
    | fdescScale j =>
      exact apply_getElem_set (fun e => e.scale.setWidth 32) s.fdesc i j _ fun hij =>
        absurd (congrArg Reg.fdescScale hij.symm) hne
    | _ => rfl
  | cmdt i =>
    cases r' with
    | cmdt j => exact apply_getElem_set cmdtWord s.cmdt i j _ fun hij => absurd (congrArg Reg.cmdt hij.symm) hne
    | _ => rfl
  | _ =>
    cases r'
    any_goals rfl
    exact absurd rfl hne

theorem busRead_congr {s t : State} {off : Nat} {lanes : BitVec 4}
    (h : ∀ r, off % 4 = 0 → regAt off = some r → t.readReg r = s.readReg r) : t.busRead off lanes = s.busRead off lanes := by
  unfold State.busRead
  split
  · rfl
  · rfl
  case h_3 r hr =>
    obtain ⟨-, hnone | ⟨h4, -, r', hr', hreg⟩⟩ := accessTarget_cases hr
    · cases hnone
    · cases hr'
      rw [h r h4 hreg]

theorem writeIdle_keeps_host_side (s : State) (d : Word) {r : Reg} (hr : IsInput r) :
    (s.writeIdle d r).engine = s.engine ∧ (s.writeIdle d r).host = s.host ∧ (s.writeIdle d r).vars = s.vars ∧
    (s.writeIdle d r).params = s.params ∧ (s.writeIdle d r).draws = s.draws := by
  cases hr <;> exact ⟨rfl, rfl, rfl, rfl, rfl⟩

/-- Settles O47: the offset names an input, which alone reads differently after the write. -/
theorem inputsAndTablesReadBack : Obligations.InputsAndTablesReadBack := by
  unfold Obligations.InputsAndTablesReadBack
  intro s off d hi hoff
  obtain ⟨r, hr, rfl⟩ := exists_isInput hoff
  refine ⟨s.writeIdle d r, ?_, ?_, fun off' lanes hne => busRead_congr fun r' h4 hreg => ?_,
    writeIdle_keeps_host_side s d hr⟩
  · rw [← writeReg_of_idle hi]
    exact s.busWrite_offsetOf r d
  · rw [← readReg_writeIdle_self s d hr]
    exact State.busRead_offsetOf _ r
  · refine readReg_writeIdle_of_ne s d hr fun heq => hne ?_
    rw [← offsetOf_of_regAt h4 hreg, heq]

end Sys2Proof.Machine
end

section
/-! PROOF. Runs: the turns of an operation in flight, its completion, and the host statement `cmd` (10_state.md R25, R40, R57;
30_encoding.md R95; 60_exceptions.md R214, R215). -/

namespace Sys2Proof.Machine

/-! ### Steps strung together -/

theorem run_succ {s t : State} (h : step s = .next t) (n : Nat) :
    Host.Core.run Sys2Proof.core (n + 1) s = Host.Core.run Sys2Proof.core n t := by
  have hs : Sys2Proof.core.step s = .next t := h
  simp only [Host.Core.run, hs]

theorem run_succ_cases {s u : State} {n : Nat} (h : Host.Core.run Sys2Proof.core (n + 1) s = .next u) :
    ∃ t, step s = .next t ∧ Host.Core.run Sys2Proof.core n t = .next u := by
  simp only [Host.Core.run] at h
  split at h
  case h_1 t ht => exact ⟨t, ht, h⟩
  all_goals cases h

theorem run_add {s t : State} {m : Nat} (h : Host.Core.run Sys2Proof.core m s = .next t) (n : Nat) :
    Host.Core.run Sys2Proof.core (m + n) s = Host.Core.run Sys2Proof.core n t := by
  induction m generalizing s with
  | zero =>
    cases h
    rw [Nat.zero_add]
  | succ m ih =>
    obtain ⟨u, hu, hrun⟩ := run_succ_cases h
    rw [Nat.succ_add_eq_add_succ, Nat.add_succ, run_succ hu, ih hrun]

theorem turn_of_idle {s : State} (h : s.engine = .idle) : s.turn = .host := by
  simp [State.turn, h]

theorem turn_of_running {s : State} {p : Half} {left : Nat} (h : s.engine = .running p left) :
    s.turn = if left ≤ 1 then .completion p else .host := by
  simp [State.turn, h]

theorem beginMove_engine_of_running {s : State} {p : Half} {left : Nat} (h : s.engine = .running p left)
    (rest : List HostMove) : (s.beginMove rest).engine = .running p (left - 1) := by
  simp [State.beginMove, State.tick, h]

/-- The last turn of a legal command is its operation. -/
theorem step_eq_exec {s : State} {p : Half} {i : Instr} (h : s.engine = .running p 1) (hd : decodeLatch p = .ok i) :
    step s = exec i s := by
  have ht : s.turn = .completion p := turn_of_running h
  simp only [step, ht, hd]

/-- R216: the last turn of a command in flight completes it, a legal one or not. -/
theorem step_completes {s : State} {p : Half} (h : s.engine = .running p 1) :
    ∃ t, step s = .next t ∧ t.engine = .idle ∧ t.done = true ∧ SameOutsideOperations s t := by
  cases hd : decodeLatch p with
  | ok i =>
    obtain ⟨u, e, b, w, hx, hu, -⟩ := exec_finishes i s
    exact ⟨u.finish e b w, (step_eq_exec h hd).trans hx, rfl, rfl, hu.finish e b w⟩
  | error e =>
    have ht : s.turn = .completion p := turn_of_running h
    exact ⟨s.completeIllegal, by simp only [step, ht, hd], rfl, rfl, (SameOutsideOperations.refl s).finish _ _ _⟩

/-! ### IRQ -/

/-- `wr OFFSET, VALUE` at a register's offset. -/
theorem playMove_hostWr (s : State) (r : Reg) (w : Word) :
    s.playMove (hostWr (offsetOf r) w) = .next { s.writeReg w r with reply := some (.written .okay) } := by
  simp only [hostWr, State.playMove, State.hostValue, State.busWrite_offsetOf]

theorem playMove_wrStatus (s : State) (w : Word) :
    s.playMove (hostWr 0x00C w) = .next { s.writeStatus w with reply := some (.written .okay) } :=
  writeReg_status s w ▸ playMove_hostWr s .status w

/-- A clear of DONE that plays before the completion is overtaken by it. -/
theorem done_of_clear_then_completion {s : State} {p : Half} {rest : List HostMove}
    (hh : s.host = hostWr 0x00C 0x2#32 :: rest) (he : s.engine = .running p 2) :
    ∃ t : State, Host.Core.run Sys2Proof.core 2 s = .next t ∧ t.done = true ∧ t.engine = .idle ∧ t.host = rest := by
  have hmove := (step_host_cons (turn_of_running he) hh).trans (playMove_wrStatus _ _)
  obtain ⟨t, ht, hidle, hdone, hsame⟩ := step_completes (p := p)
    (s := { (s.beginMove rest).writeStatus 0x2#32 with reply := some (.written .okay) })
    ((State.writeStatus_engine _ _).trans (beginMove_engine_of_running he rest))
  exact ⟨t, (run_succ hmove 1).trans (run_succ ht 0), hdone, hidle, hsame.host.trans (State.writeStatus_host _ _)⟩

/-- A clear of DONE that plays after the completion holds. -/
theorem not_done_of_completion_then_clear {s : State} {p : Half} {rest : List HostMove}
    (hh : s.host = hostWr 0x00C 0x2#32 :: rest) (he : s.engine = .running p 1) :
    ∃ t : State, Host.Core.run Sys2Proof.core 2 s = .next t ∧ t.done = false ∧ t.engine = .idle ∧ t.host = rest := by
  obtain ⟨u, hu, hidle, -, hsame⟩ := step_completes he
  have hmove := (step_host_cons (turn_of_idle hidle) (hsame.host.trans hh)).trans (playMove_wrStatus _ _)
  refine ⟨_, (run_succ hu 1).trans (run_succ hmove 0), ?_, ?_, State.writeStatus_host _ _⟩
  · exact (State.writeStatus_done _ _).trans (by simp)
  · exact (State.writeStatus_engine _ _).trans ((u.beginMove_idle_iff rest).2 hidle)

/-- Settles O50: a completion sets DONE and keeps IE; the two orders of a clear and a completion, one lemma each. -/
theorem irqFollowsEnableAndDone : Obligations.IrqFollowsEnableAndDone := by
  unfold Obligations.IrqFollowsEnableAndDone
  refine ⟨fun i s t h => ?_, fun s t d hd h => ?_, fun s t d hi hd h => ?_, fun s p rest hh =>
    ⟨done_of_clear_then_completion hh, not_done_of_completion_then_clear hh⟩⟩
  · obtain ⟨u, e, b, w, hx, hu, -⟩ := exec_finishes i s
    cases hx.symm.trans h
    simp [State.irq, hu.ie]
  · cases (s.busWrite_offsetOf .status d).symm.trans h
    rw [writeReg_status, State.irq, State.writeStatus_done, hd, Bool.not_true, Bool.and_false, Bool.and_false]
  · cases (s.busWrite_offsetOf .ctrl d).symm.trans h
    cases hsrst : d.getLsbD 2 with
    | true =>
      rw [writeReg_ctrl_of_srst s hsrst]
      rfl
    | false =>
      rw [writeReg_ctrl_of_stores hi hsrst, State.irq, hd, Bool.false_and]

end Sys2Proof.Machine
end

section
/-! PROOF. An operation in flight (10_state.md R25, R40, R57): its inputs hold to its last turn, the host's `wait` polls over it,
and the host statement `cmd` runs it whole (30_encoding.md R95). -/

namespace Sys2Proof.Machine

/-! ### The inputs of an operation in flight -/

theorem SameInputs.refl (s : State) : SameInputs s s := by
  constructor <;> rfl

theorem SameInputs.trans {s t u : State} (h : SameInputs s t) (h' : SameInputs t u) : SameInputs s u := by
  cases h
  cases h'
  constructor <;> simp only [*]

theorem SameInputs.tick (s : State) : SameInputs s s.tick := by
  constructor <;> simp

theorem SameInputs.beginMove (s : State) (rest : List HostMove) : SameInputs s (s.beginMove rest) := by
  obtain h := SameInputs.tick s
  cases h
  constructor <;> assumption

/-- What the lock lets through beside a soft reset changes no input of an operation and not its countdown. -/
theorem writeBusy_keeps_inputs (s : State) (d : Word) {r : Reg} (hr : r ≠ .ctrl) :
    (s.writeBusy d r).engine = s.engine ∧ SameInputs s (s.writeBusy d r) := by
  rw [writeBusy_eq]
  split
  · exact ⟨s.writeStatus_engine d, by constructor <;> simp⟩
  split
  · exact ⟨rfl, by constructor <;> rfl⟩
  · rw [if_neg fun h => hr h.1]
    exact ⟨rfl, by constructor <;> rfl⟩

theorem busWrite_keeps_inputs {s u : State} {off : Nat} {lanes : BitVec 4} {d : Word} {r : Resp} (hb : s.busy = true)
    (hoff : off ≠ 0x004) (h : s.busWrite off lanes d = .ok (u, r)) : u.engine = s.engine ∧ SameInputs s u := by
  obtain ⟨-, ⟨rfl, -⟩ | ⟨h4, -, reg, hreg, rfl, -⟩⟩ := busWrite_cases h
  · exact ⟨rfl, .refl u⟩
  · rw [writeReg_of_busy hb]
    refine writeBusy_keeps_inputs s d fun hctrl => hoff ?_
    rw [← offsetOf_of_regAt h4 hreg, hctrl]
    rfl

/-- A host move on a busy block that cannot reset it keeps the countdown and the inputs, and leaves the list, or is put back. -/
theorem playMove_keeps_inputs {s t : State} {m : HostMove} (hb : s.busy = true) (hm : m.mayReset = false)
    (h : s.playMove m = .next t) :
    t.engine = s.engine ∧ SameInputs s t ∧ (t.host = s.host ∨ t.host = m :: s.host) := by
  obtain ⟨-, rfl⟩ | ⟨off, lanes, into, d, r, -, -, rfl⟩ | ⟨off, lanes, v, d, u, r, rfl, -, hu, rfl⟩ | ⟨rfl, -, rfl⟩ |
    ⟨rfl, hidle, -⟩ | ⟨rfl, -⟩ := playMove_cases h
  · exact ⟨rfl, .refl t, .inl rfl⟩
  · exact ⟨rfl, by constructor <;> rfl, .inl rfl⟩
  · obtain ⟨hengine, hsame⟩ := busWrite_keeps_inputs hb (by simpa [HostMove.mayReset] using hm) hu
    exact ⟨hengine, hsame.trans (by constructor <;> rfl), .inl (busWrite_sameHostSide hu).host⟩
  · exact ⟨rfl, by constructor <;> rfl, .inr rfl⟩
  · cases hidle.symm.trans hb
  · cases hm

/-- One turn of an operation with at least two to go, under a host that cannot reset it. -/
theorem step_in_flight {s t : State} {p : Half} {n : Nat} (he : s.engine = .running p (n + 2))
    (hm : ∀ m ∈ s.host.head?, m.mayReset = false) (h : step s = .next t) :
    t.engine = .running p (n + 1) ∧ SameInputs s t ∧ (t.host = s.host ∨ t.host = s.host.tail) := by
  have hturn : s.turn = .host := (turn_of_running he).trans (if_neg (by omega))
  cases hh : s.host with
  | nil =>
    cases (step_host_nil hturn hh).symm.trans h
    exact ⟨beginMove_engine_of_running he [], .tick s, .inl (s.tick_host.trans hh)⟩
  | cons m rest =>
    have hengine : (s.beginMove rest).engine = .running p (n + 1) := beginMove_engine_of_running he rest
    obtain ⟨hkeep, hsame, hhost⟩ :=
      playMove_keeps_inputs (busy_of_running hengine) (hm m (by simp [hh])) ((step_host_cons hturn hh).symm.trans h)
    exact ⟨hkeep.trans hengine, (SameInputs.beginMove s rest).trans hsame, hhost.symm⟩

/-- The operation's last turn is left after as many steps as it has turns before it, its inputs as they were. -/
theorem run_in_flight {n : Nat} {s t : State} {p : Half} (he : s.engine = .running p (n + 1))
    (hm : ∀ m ∈ s.host.take n, m.mayReset = false) (h : Host.Core.run Sys2Proof.core n s = .next t) :
    t.engine = .running p 1 ∧ SameInputs s t := by
  induction n generalizing s with
  | zero =>
    cases h
    exact ⟨he, .refl t⟩
  | succ n ih =>
    obtain ⟨u, hu, hrun⟩ := run_succ_cases h
    have hhead : ∀ m ∈ s.host.head?, m.mayReset = false := fun m hmem => by
      obtain ⟨rest, hh⟩ := List.head?_eq_some_iff.1 hmem
      exact hm m (by simp [hh])
    obtain ⟨hengine, hsame, hhost⟩ := step_in_flight he hhead hu
    have hrest : ∀ m ∈ u.host.take n, m.mayReset = false := fun m hmem => by
      refine hm m ?_
      rcases hhost with hhost | hhost <;> rw [hhost] at hmem
      · exact List.take_subset_take_left _ (Nat.le_succ n) hmem
      · cases hs : s.host <;> simp_all
    obtain ⟨hlast, hsame'⟩ := ih hengine hrest hrun
    exact ⟨hlast, hsame.trans hsame'⟩

/-- With no host move to come, the countdown runs out. -/
theorem run_countdown {n : Nat} {s : State} {p : Half} (he : s.engine = .running p (n + 1)) (hh : s.host = []) :
    ∃ t, Host.Core.run Sys2Proof.core n s = .next t ∧ t.engine = .running p 1 ∧ t.host = [] := by
  induction n generalizing s with
  | zero => exact ⟨s, rfl, he, hh⟩
  | succ n ih =>
    have hturn : s.turn = .host := (turn_of_running he).trans (if_neg (by omega))
    obtain ⟨t, ht, hlast, hhost⟩ := ih (s := s.tick) (beginMove_engine_of_running he []) (s.tick_host.trans hh)
    exact ⟨t, (run_succ (step_host_nil hturn hh) n).trans ht, hlast, hhost⟩

/-- Settles O55: the inputs by `run_in_flight`, the completion by `step_completes`. -/
theorem inputsHoldUntilCompletion : Obligations.InputsHoldUntilCompletion := by
  unfold Obligations.InputsHoldUntilCompletion
  refine ⟨fun n s t p he hm h => ?_, fun n s p he hh => ?_⟩
  · obtain ⟨hlast, hsame⟩ := run_in_flight he hm h
    obtain ⟨u, hu, hidle, hdone, -⟩ := step_completes hlast
    exact ⟨hlast, hsame, u, hu, busy_of_idle hidle, hdone⟩
  · obtain ⟨t, ht, hlast, hhost⟩ := run_countdown he hh
    obtain ⟨u, hu, hidle, hdone, hsame⟩ := step_completes hlast
    exact ⟨u, (run_add ht 1).trans (run_succ hu 0), busy_of_idle hidle, hdone, hsame.host.trans hhost⟩

/-! ### The host statement `cmd` -/

/-- The latched half of an operation's command word decodes to the operation (30_encoding.md R91, R92). -/
theorem decodeLatch_encode (i : Instr) : decodeLatch ((encode i).setWidth 16) = .ok i := by
  have low (lo : Nat) (h : lo + 8 ≤ 16) : ((encode i).setWidth 16).extractLsb' lo 8 = (encode i).extractLsb' lo 8 := by
    refine BitVec.eq_of_getLsbD_eq fun k hk => ?_
    have hlo : lo + k < 16 := by omega
    simp only [BitVec.getLsbD_extractLsb', BitVec.getLsbD_setWidth, hlo, decide_true, Bool.true_and]
  have hopc : ((encode i).setWidth 16).extractLsb' 0 8 = opcOf i := (low 0 (by decide)).trans (opc_commandWord _ _)
  have harg : ((encode i).setWidth 16).extractLsb' 8 8 = argOf i := (low 8 (by decide)).trans (arg_commandWord _ _)
  unfold decodeLatch
  rw [hopc, harg]
  cases i with
  | ckSum8 sel | ckCheck8 sel | ckAppend8 sel | ckCrc16 sel | ckCheck16 sel | ckAppend16 sel => cases sel <;> rfl
  | _ => rfl

theorem beginMove_of_idle {s : State} (h : s.engine = .idle) (rest : List HostMove) :
    s.beginMove rest = { s with host := rest } := by
  simp [State.beginMove, State.tick, h]

theorem beginMove_of_running {s : State} {p : Half} {left : Nat} (h : s.engine = .running p left) (rest : List HostMove) :
    s.beginMove rest = { s with engine := .running p (left - 1), host := rest } := by
  simp [State.beginMove, State.tick, h]

theorem playMove_wait_of_busy {s : State} (h : s.busy = true) :
    s.playMove .wait = .next { s with reply := some (.readData s.statusWord .okay), host := .wait :: s.host } := by
  simp [State.playMove, h]

theorem playMove_wait_of_idle {s : State} (h : s.busy = false) :
    s.playMove .wait = .next { s with reply := some (.readData s.statusWord .okay) } := by
  simp [State.playMove, h]

theorem step_wait_of_running {s : State} {p : Half} {k : Nat} {rest : List HostMove} (he : s.engine = .running p (k + 2))
    (hh : s.host = .wait :: rest) :
    ∃ r, step s = .next { s with engine := .running p (k + 1), reply := r } := by
  have hturn : s.turn = .host := (turn_of_running he).trans (if_neg (by omega))
  refine ⟨some (.readData (s.beginMove rest).statusWord .okay), ?_⟩
  rw [step_host_cons hturn hh, playMove_wait_of_busy (busy_of_running (beginMove_engine_of_running he rest)),
    beginMove_of_running he]
  simp only [hh]
  rfl

/-- `wait` polls STATUS in every turn before the last and changes nothing but the reply. -/
theorem run_wait {k : Nat} {s : State} {p : Half} {rest : List HostMove} (he : s.engine = .running p (k + 1))
    (hh : s.host = .wait :: rest) :
    ∃ r, Host.Core.run Sys2Proof.core k s = .next { s with engine := .running p 1, reply := r } := by
  induction k generalizing s with
  | zero =>
    refine ⟨s.reply, ?_⟩
    rw [← he]
    rfl
  | succ k ih =>
    obtain ⟨r, hpoll⟩ := step_wait_of_running he hh
    obtain ⟨r', hrun⟩ := ih (s := { s with engine := .running p (k + 1), reply := r }) rfl hh
    exact ⟨r', (run_succ hpoll k).trans hrun⟩

/-- The last `wait` finds BUSY = 0 and gives way to the rest of the program. -/
theorem step_wait_of_idle {s : State} {rest : List HostMove} (he : s.engine = .idle) (hh : s.host = .wait :: rest) :
    step s = .next { s with host := rest, reply := some (.readData s.statusWord .okay) } := by
  rw [step_host_cons (turn_of_idle he) hh, beginMove_of_idle he,
    playMove_wait_of_idle (s := { s with host := rest }) (busy_of_idle he)]
  rfl

/-- The host's CMD write on an idle block is acceptance (R25(1)). -/
theorem step_wrCmd_of_idle {s : State} {w : Word} {rest : List HostMove} (he : s.engine = .idle)
    (hh : s.host = hostWr 0x008 w :: rest) :
    step s = .next { s.accept w with host := rest, reply := some (.written .okay) } := by
  rw [step_host_cons (turn_of_idle he) hh, beginMove_of_idle he]
  refine (playMove_hostWr _ .cmd w).trans ?_
  rw [writeReg_of_idle (s := { s with host := rest }) he]
  rfl

/-- Settles O59: the write is acceptance, `wait` polls to the last turn, the completion is `exec`, and the last poll ends `wait`. -/
theorem cmdStatementRunsTheOperation : Obligations.CmdStatementRunsTheOperation := by
  unfold Obligations.CmdStatementRunsTheOperation
  intro s i rest hi hh
  have haccept := step_wrCmd_of_idle hi hh
  obtain ⟨r, hpolls⟩ := run_wait (k := Config.freeLatency s.draws ((encode i).setWidth 16))
    (s := { s.accept (encode i) with host := .wait :: rest, reply := some (.written .okay) }) rfl rfl
  obtain ⟨u, e, b, w, hx, hu, -⟩ := exec_finishes i { s with
    cmd := (encode i).setWidth 16, engine := .running ((encode i).setWidth 16) 1, draws := s.draws + 1
    host := .wait :: rest, reply := r }
  have hcompletes := (step_eq_exec rfl (decodeLatch_encode i)).trans hx
  have hends := step_wait_of_idle (s := u.finish e b w) rfl hu.host
  refine ⟨_, r, u.finish e b w, hx, (run_succ haccept _).trans ((run_add hpolls 2).trans ?_)⟩
  exact (run_succ hcompletes 1).trans (run_succ hends 0)

end Sys2Proof.Machine
end

section
/-! PROOF. The window's edges and its buffer words: which accesses get ERROR, which registers ignore a write, and the byte lanes of
RXB and TXB words (20_memory.md R70-R73, R219; 10_state.md R20, R21, R46, R47). -/

namespace Sys2Proof.Machine

/-! ### Accesses that reach no register -/

theorem regAt_of_reserved {off : Nat} (h : reservedOffset off) : regAt off = none := by
  obtain rfl | rfl | ⟨hlo, hhi⟩ | ⟨hlo, hhi⟩ := h
  · rfl
  · rfl
  · simp (disch := omega) only [regAt, if_neg, if_pos]
  · simp (disch := omega) only [regAt, if_neg, if_pos]

theorem accessTarget_of_ill_formed_or_reserved {off : Nat} {lanes : BitVec 4} (hw : off < 0x800)
    (h : off % 4 ≠ 0 ∨ lanes ≠ 0xF#4 ∨ reservedOffset off) : accessTarget off lanes = .ok none := by
  rw [accessTarget, if_neg (show ¬ Config.windowBytes ≤ off from Nat.not_le.2 hw)]
  split
  case isTrue hfull =>
    have hr : reservedOffset off := by simpa [hfull] using h
    rw [regAt_of_reserved hr]
  case isFalse => rfl

theorem busWrite_of_no_target {off : Nat} {lanes : BitVec 4} (h : accessTarget off lanes = .ok none) (s : State) (d : Word) :
    s.busWrite off lanes d = .ok (s, .error) := by
  rw [State.busWrite, h]

theorem busRead_of_no_target {off : Nat} {lanes : BitVec 4} (h : accessTarget off lanes = .ok none) (s : State) :
    s.busRead off lanes = .ok (0#32, .error) := by
  rw [State.busRead, h]

/-- Settles O38: such an access reaches no register, and every other offset of the window is mapped. -/
theorem illFormedAndReservedAccessesGetError : Obligations.IllFormedAndReservedAccessesGetError := by
  unfold Obligations.IllFormedAndReservedAccessesGetError
  refine fun s off lanes d hw => ⟨fun h => ?_, fun h4 hlanes hr => ?_⟩
  · have hnone := accessTarget_of_ill_formed_or_reserved hw h
    exact ⟨busWrite_of_no_target hnone s d, busRead_of_no_target hnone s⟩
  · obtain ⟨r, hreg⟩ := regAt_of_not_reserved hw h4 hr
    subst hlanes
    exact ⟨⟨_, busWrite_aligned hw h4 hreg⟩, ⟨_, busRead_aligned hw h4 hreg⟩⟩

/-! ### Read-only registers -/

/-- A read-only offset names a register that a write while BUSY = 0 leaves, with all of the state, as it is (20_memory.md R73). -/
theorem exists_ignoring_of_readOnly {off : Nat} (h : readOnlyOffset off) :
    ∃ r, offsetOf r = off ∧ ∀ (s : State) (d : Word), s.writeIdle d r = s := by
  obtain hnamed | ⟨hlo, hhi, h4⟩ := h
  · change off ∈ [Reg.id, .result, .pAddr, .pFunc, .pSrc, .pBcnt, .pOff, .pLen, .pFlen, .pstate, .scClass, .decInfo,
      .fvValid].map offsetOf at hnamed
    obtain ⟨r, hr, hoff⟩ := List.mem_map.1 hnamed
    exact ⟨r, hoff, fun s d => by fin_cases hr <;> rfl⟩
  · by_cases hnum : off < 0x180
    · exact ⟨.fvNum ⟨(off - 0x100) / 4, by omega⟩, by simp only [offsetOf]; omega, fun _ _ => rfl⟩
    · exact ⟨.fvDen ⟨(off - 0x180) / 4, by omega⟩, by simp only [offsetOf]; omega, fun _ _ => rfl⟩

/-- Settles O39: the offset names a register that ignores the write; ID stands at offset 0. -/
theorem readOnlyRegistersIgnoreWrites : Obligations.ReadOnlyRegistersIgnoreWrites := by
  unfold Obligations.ReadOnlyRegistersIgnoreWrites
  refine ⟨fun s off d hi hoff => ?_, fun s => s.busRead_offsetOf .id⟩
  obtain ⟨r, rfl, hignore⟩ := exists_ignoring_of_readOnly hoff
  rw [s.busWrite_offsetOf, writeReg_of_idle hi, hignore]

/-! ### Buffer words -/

/-- The word of the selected buffer's bytes 4w .. 4w+3 (10_state.md R46, R47). -/
def bufWord : Sel → Fin 128 → Reg
  | .rxb, w => .rxb w
  | .txb, w => .txb w

theorem offsetOf_bufWord (sel : Sel) (w : Fin 128) : offsetOf (bufWord sel w) = selBase sel + 4 * w.val := by
  cases sel <;> rfl

theorem readReg_bufWord (s : State) (sel : Sel) (w : Fin 128) :
    s.readReg (bufWord sel w) = s.wordAt (selBase sel + 4 * w.val) := by
  cases sel <;> rfl

theorem writeIdle_bufWord (s : State) (d : Word) (sel : Sel) (w : Fin 128) :
    s.writeIdle d (bufWord sel w) =
      { s.writeBytes (selBase sel + 4 * w.val) (lanesOf d) with pv := if sel = .rxb then .none else s.pv } := by
  cases sel <;> rfl

/-- Four byte lanes make up the word (20_memory.md R70). -/
theorem wordOfLanes_laneOf (w : Word) : wordOfLanes (laneOf w 0) (laneOf w 1) (laneOf w 2) (laneOf w 3) = w := by
  simp only [wordOfLanes, laneOf]
  rw [BitVec.extractLsb'_append_extractLsb'_eq_extractLsb' (by decide),
    BitVec.extractLsb'_append_extractLsb'_eq_extractLsb' (by decide),
    BitVec.extractLsb'_append_extractLsb'_eq_extractLsb' (by decide)]
  exact BitVec.extractLsb'_eq_self

theorem wordAt_of_lanes {s : State} {a : Nat} {w : Word} (h : ∀ k < 4, s.byteAt (a + k) = laneOf w k) : s.wordAt a = w := by
  rw [State.wordAt, h 1 (by decide), h 2 (by decide), h 3 (by decide), ← Nat.add_zero a, h 0 (by decide), wordOfLanes_laneOf]

theorem getElem_lanesOf (w : Word) {k : Nat} (hk : k < 4) : (lanesOf w)[k] = laneOf w k := by
  match k, hk with
  | 0, _ | 1, _ | 2, _ | 3, _ => rfl

theorem byteAt_writeBytes_lane (s : State) (a : Nat) (d : Word) {k : Nat} (hk : k < 4) :
    (s.writeBytes a (lanesOf d)).byteAt (a + k) = laneOf d k := by
  rw [State.byteAt_writeBytes, dif_pos ⟨by omega, by simpa [lanesOf] using hk⟩]
  simp only [Nat.add_sub_cancel_left]
  exact getElem_lanesOf d hk

/-- Settles O46: the write stores the word's lanes, from which the word reads back. -/
theorem bufferWordsAreLittleEndianLanes : Obligations.BufferWordsAreLittleEndianLanes := by
  unfold Obligations.BufferWordsAreLittleEndianLanes
  intro s sel w d hi hw
  have hoff := offsetOf_bufWord sel ⟨w, hw⟩
  have hlane (k : Nat) (hk : k < 4) := byteAt_writeBytes_lane s (selBase sel + 4 * w) d hk
  refine ⟨s.writeIdle d (bufWord sel ⟨w, hw⟩), ?_, ?_, fun k hk => ?_, fun a ha => ?_, ?_⟩
  · rw [← hoff, s.busWrite_offsetOf, writeReg_of_idle hi]
  · rw [writeIdle_bufWord]
    rfl
  · rw [writeIdle_bufWord, State.selByte, ← Nat.add_assoc]
    exact hlane k hk
  · rw [writeIdle_bufWord]
    exact (State.byteAt_writeBytes s _ a _).trans (dif_neg ha)
  · rw [← hoff, State.busRead_offsetOf, readReg_bufWord, writeIdle_bufWord]
    congr 2
    exact wordAt_of_lanes hlane

end Sys2Proof.Machine
end

section
/-! PROOF. The command word's decoder and encoder agree (30_encoding.md R90-R94). -/

namespace Sys2Proof.Machine

/-! ### The rows of the opcode map -/

theorem legalOpcodes_eq_map_opc : legalOpcodes = opcodeMap.map (·.opc) := rfl

/-- No two rows share an OPC, so a row is the one found under its own. -/
theorem find?_opc_of_mem {row : OpcodeRow} (h : row ∈ opcodeMap) :
    opcodeMap.find? (fun row' => row'.opc == row.opc) = some row := by
  fin_cases h <;> rfl

theorem argOfSel_selOfArg (arg : Byte) : argOfSel (selOfArg arg) = arg &&& 1#8 := by
  rw [BitVec.and_one_eq_setWidth_ofBool_getLsbD, selOfArg]
  cases arg.getLsbD 0 <;> rfl

/-- A row builds the operation of its OPC, with the ARG bits that the operation uses and no others (R91, R92): a selector for
CK_*, a command code for VB_*, none for the others. -/
theorem opcOf_argOf_build {row : OpcodeRow} (h : row ∈ opcodeMap) (arg : Byte) :
    opcOf (row.build arg) = row.opc ∧ argOf (row.build arg) = arg &&& usedArgBits row.opc := by
  have sel : argOfSel (selOfArg arg) = arg &&& 1#8 := argOfSel_selOfArg arg
  have code : arg = arg &&& 0xFF#8 := BitVec.and_allOnes.symm
  have unused : 0#8 = arg &&& 0#8 := BitVec.and_zero.symm
  fin_cases h
  exacts [⟨rfl, unused⟩,
    ⟨rfl, sel⟩, ⟨rfl, sel⟩, ⟨rfl, sel⟩, ⟨rfl, sel⟩, ⟨rfl, sel⟩, ⟨rfl, sel⟩,
    ⟨rfl, unused⟩, ⟨rfl, unused⟩,
    ⟨rfl, code⟩, ⟨rfl, code⟩, ⟨rfl, code⟩,
    ⟨rfl, unused⟩, ⟨rfl, unused⟩, ⟨rfl, unused⟩, ⟨rfl, unused⟩]

/-! ### Decoding a word -/

/-- A word decodes by the row found under its OPC byte; bits [31:16] take no part (R90). -/
theorem decodeCommand_of_find? {w : Word} {row : OpcodeRow}
    (h : opcodeMap.find? (fun row' => row'.opc == w.extractLsb' 0 8) = some row) :
    decodeCommand w = .ok (row.build (w.extractLsb' 8 8)) := by
  rw [decodeCommand, decodeLatch, BitVec.extractLsb'_setWidth_of_le (by decide),
    BitVec.extractLsb'_setWidth_of_le (by decide), h]

/-- A legal OPC decodes to the operation that has this OPC and this ARG's used bits. -/
theorem decodeCommand_of_legal {w : Word} (h : w.extractLsb' 0 8 ∈ legalOpcodes) :
    ∃ i, decodeCommand w = .ok i ∧ opcOf i = w.extractLsb' 0 8 ∧
      argOf i = w.extractLsb' 8 8 &&& usedArgBits (w.extractLsb' 0 8) := by
  rw [legalOpcodes_eq_map_opc] at h
  obtain ⟨row, hrow, hopc⟩ := List.mem_map.1 h
  refine ⟨row.build (w.extractLsb' 8 8), decodeCommand_of_find? ?_, ?_⟩
  · rw [← hopc, find?_opc_of_mem hrow]
  · rw [← hopc]
    exact opcOf_argOf_build hrow _

/-- An OPC in no row is refused by name (R93). -/
theorem decodeCommand_of_illegal {w : Word} (h : w.extractLsb' 0 8 ∉ legalOpcodes) :
    decodeCommand w = .error (.illegalOpcode (w.extractLsb' 0 8)) := by
  have hnone : opcodeMap.find? (fun row => row.opc == w.extractLsb' 0 8) = none := by
    simpa [legalOpcodes_eq_map_opc] using h
  rw [decodeCommand, decodeLatch, BitVec.extractLsb'_setWidth_of_le (by decide), hnone]

/-- Settles O3: a legal OPC decodes and an illegal one is refused, so the first clause is both. -/
theorem exactlySixteenOpcodesAreLegal : Obligations.ExactlySixteenOpcodesAreLegal := by
  unfold Obligations.ExactlySixteenOpcodesAreLegal
  refine ⟨fun w => ⟨fun ⟨i, hi⟩ => ?_, fun h => ?_⟩, fun w => decodeCommand_of_illegal, by decide, rfl⟩
  · by_contra h
    cases hi.symm.trans (decodeCommand_of_illegal h)
  · obtain ⟨i, hi, -⟩ := decodeCommand_of_legal h
    exact ⟨i, hi⟩

/-! ### Round trips -/

theorem decodeCommand_encode (i : Instr) : decodeCommand (encode i) = .ok i :=
  decodeLatch_encode i

theorem encode_injective : Function.Injective encode := fun i j h =>
  Except.ok.inj ((decodeCommand_encode i).symm.trans (h ▸ decodeCommand_encode j))

theorem opcOf_mem_legalOpcodes (i : Instr) : opcOf i ∈ legalOpcodes := by
  cases i <;> exact List.contains_iff_mem.1 rfl

/-- The OPC byte, the ARG byte and bits [31:16] make up the word (R90). -/
theorem high_append_arg_append_opc (w : Word) :
    w.extractLsb' 16 16 ++ (w.extractLsb' 8 8 ++ w.extractLsb' 0 8) = w := by
  rw [BitVec.extractLsb'_append_extractLsb'_eq_extractLsb' (by decide),
    BitVec.extractLsb'_append_extractLsb'_eq_extractLsb' (by decide)]
  exact BitVec.extractLsb'_eq_self

theorem commandWord_of_high_zero {w : Word} (h : w.extractLsb' 16 16 = 0#16) :
    commandWord (w.extractLsb' 0 8) (w.extractLsb' 8 8) = w := by
  rw [← high_append_arg_append_opc (commandWord _ _), opc_commandWord, arg_commandWord, high_commandWord, ← h,
    high_append_arg_append_opc]

/-- Clear of the bits outside a mask, a byte is its masked self. -/
theorem and_eq_self_of_and_not_eq_zero {a m : Byte} (h : a &&& ~~~ m = 0#8) : a &&& m = a := by
  calc a &&& m = a &&& m ||| a &&& ~~~ m := by rw [h, BitVec.or_zero]
    _ = a := by rw [← BitVec.and_or_distrib_left, BitVec.or_not_self, BitVec.and_allOnes]

/-- A canonical word (R90, R92): a legal OPC, in ARG used bits only, bits [31:16] zero. -/
theorem wellFormed_elim {w : Word} (h : CommandWord.wellFormed w = true) :
    w.extractLsb' 0 8 ∈ legalOpcodes ∧
    w.extractLsb' 8 8 &&& usedArgBits (w.extractLsb' 0 8) = w.extractLsb' 8 8 ∧ w.extractLsb' 16 16 = 0#16 := by
  simp only [CommandWord.wellFormed, Bool.and_eq_true, List.contains_iff_mem, beq_iff_eq] at h
  obtain ⟨⟨hlegal, hunused⟩, hhigh⟩ := h
  exact ⟨hlegal, and_eq_self_of_and_not_eq_zero hunused, hhigh⟩

/-- Settles O2: the operation that a word decodes to has the word's OPC and used ARG bits, and these determine it. -/
theorem decodeAndEncodeAgree : Obligations.DecodeAndEncodeAgree := by
  unfold Obligations.DecodeAndEncodeAgree
  refine ⟨decodeCommand_encode, fun i w hopc harg => ?_, fun w hw => ?_⟩
  · obtain ⟨j, hj, hopc', harg'⟩ := decodeCommand_of_legal (hopc ▸ opcOf_mem_legalOpcodes i)
    have hsame : encode j = encode i := by rw [encode, hopc', harg', hopc, harg, encode]
    rw [hj, encode_injective hsame]
  · obtain ⟨hlegal, harg, hhigh⟩ := wellFormed_elim hw
    obtain ⟨i, hi, hopc', harg'⟩ := decodeCommand_of_legal hlegal
    exact ⟨i, hi, by rw [encode, hopc', harg', harg, commandWord_of_high_zero hhigh]⟩

/-- Settles O1: the words are the encodings of VB_PARSE with code 0x5A and of CK_CHECK8 on TXB. -/
theorem specWordsDecodeToTheirOperations : Obligations.SpecWordsDecodeToTheirOperations := by
  unfold Obligations.SpecWordsDecodeToTheirOperations
  have hvb : commandWord 0x22#8 0x5A#8 = 0x00005A22#32 := by decide
  have hck : commandWord 0x02#8 0x01#8 = 0x00000102#32 := by decide
  exact ⟨hvb ▸ decodeCommand_encode (.vbParse 0x5A#8), hck ▸ decodeCommand_encode (.ckCheck8 .txb), hvb, hck,
    fun _ _ => rfl⟩

end Sys2Proof.Machine
end

section
/-! PROOF. The pseudo-instruction `wrbytes` (30_encoding.md R96): the lanes of its words, the words it visits, and the run of its
moves. -/

namespace Sys2Proof.Machine

/-! ### Byte lanes of a word under construction -/

theorem laneOf_wordOfLanes (f : Nat → Byte) {k : Nat} (hk : k < 4) :
    laneOf (wordOfLanes (f 0) (f 1) (f 2) (f 3)) k = f k := by
  refine BitVec.eq_of_getLsbD_eq fun i hi => ?_
  simp only [laneOf, wordOfLanes, BitVec.getLsbD_extractLsb', BitVec.getLsbD_append, hi, decide_true, Bool.true_and]
  match k, hk with
  | 0, _ | 1, _ | 2, _ | 3, _ =>
    simp (disch := omega) only [if_pos, if_neg]
    congr 1
    omega

theorem laneOf_wordAt (s : State) (a : Nat) {k : Nat} (hk : k < 4) : laneOf (s.wordAt a) k = s.byteAt (a + k) :=
  laneOf_wordOfLanes (fun k => s.byteAt (a + k)) hk

theorem laneOf_mergeLanes (old : Word) (mask : BitVec 4) (data : Word) {k : Nat} (hk : k < 4) :
    laneOf (mergeLanes old mask data) k = if mask.getLsbD k then laneOf data k else laneOf old k :=
  laneOf_wordOfLanes (fun k => if mask.getLsbD k then laneOf data k else laneOf old k) hk

/-- Bit k of a lane mask is its k-th flag. -/
theorem getLsbD_laneMask (f : Nat → Bool) {k : Nat} (hk : k < 4) :
    (BitVec.ofNat 4 ((f 3).toNat * 8 + (f 2).toNat * 4 + (f 1).toNat * 2 + (f 0).toNat)).getLsbD k = f k := by
  match k, hk with
  | 0, _ | 1, _ | 2, _ | 3, _ =>
    generalize f 0 = b0, f 1 = b1, f 2 = b2, f 3 = b3
    revert b0 b1 b2 b3
    decide

theorem getLsbD_wrbytesWord_mask (index : Nat) (bs : List Byte) (w : Nat) {k : Nat} (hk : k < 4) :
    (wrbytesWord index bs w).1.getLsbD k = (wrbytesByte index bs (4 * w + k)).isSome :=
  getLsbD_laneMask (fun k => (wrbytesByte index bs (4 * w + k)).isSome) hk

theorem laneOf_wrbytesWord_data (index : Nat) (bs : List Byte) (w : Nat) {k : Nat} (hk : k < 4) :
    laneOf (wrbytesWord index bs w).2 k = (wrbytesByte index bs (4 * w + k)).getD 0#8 :=
  laneOf_wordOfLanes (fun k => (wrbytesByte index bs (4 * w + k)).getD 0#8) hk

/-- Merging a word of a `wrbytes` replaces the lanes that it has a byte for. -/
theorem laneOf_merge_wrbytesWord (old : Word) (index : Nat) (bs : List Byte) (w : Nat) {k : Nat} (hk : k < 4) :
    laneOf (mergeLanes old (wrbytesWord index bs w).1 (wrbytesWord index bs w).2) k =
      (wrbytesByte index bs (4 * w + k)).getD (laneOf old k) := by
  rw [laneOf_mergeLanes old _ _ hk, getLsbD_wrbytesWord_mask index bs w hk, laneOf_wrbytesWord_data index bs w hk]
  cases wrbytesByte index bs (4 * w + k) <;> rfl

/-! ### The words that a `wrbytes` visits -/

theorem wrbytesByte_index_add (index : Nat) (bs : List Byte) (j : Nat) : wrbytesByte index bs (index + j) = bs[j]? := by
  simp [wrbytesByte]

theorem wrbytesByte_isSome_iff (index : Nat) (bs : List Byte) (i : Nat) :
    (wrbytesByte index bs i).isSome = true ↔ ∃ j, j < bs.length ∧ index + j = i := by
  by_cases h : index ≤ i
  · obtain ⟨j, rfl⟩ := Nat.exists_eq_add_of_le h
    simp [wrbytesByte_index_add]
  · refine iff_of_false (by simp [wrbytesByte, h]) ?_
    rintro ⟨j, -, rfl⟩
    exact h (Nat.le_add_right index j)

/-- A word's mask is non-zero exactly when the word holds one of the indices. -/
theorem wrbytesWord_mask_ne_zero_iff (index : Nat) (bs : List Byte) (w : Nat) :
    (wrbytesWord index bs w).1 ≠ 0#4 ↔ ∃ j, j < bs.length ∧ (index + j) / 4 = w := by
  constructor
  · contrapose!
    intro h
    refine BitVec.eq_of_getLsbD_eq fun k hk => ?_
    rw [getLsbD_wrbytesWord_mask index bs w hk, BitVec.getLsbD_zero, Bool.eq_false_iff]
    intro hsome
    obtain ⟨j, hj, hi⟩ := (wrbytesByte_isSome_iff index bs _).1 hsome
    exact h j hj (by omega)
  · rintro ⟨j, hj, hw⟩ hzero
    have hbit := getLsbD_wrbytesWord_mask index bs w (Nat.mod_lt (index + j) (by decide : 4 > 0))
    rw [hzero, BitVec.getLsbD_zero, ← hw, Nat.div_add_mod, (wrbytesByte_isSome_iff index bs _).2 ⟨j, hj, rfl⟩] at hbit
    cases hbit

theorem mem_wrbytesWords_iff (index : Nat) (bs : List Byte) (w : Nat) :
    w ∈ wrbytesWords index bs ↔ w < 128 ∧ ∃ j, j < bs.length ∧ (index + j) / 4 = w := by
  rw [wrbytesWords, List.mem_filter, List.mem_range, bne_iff_ne, wrbytesWord_mask_ne_zero_iff]

theorem wrbytesWords_rising (index : Nat) (bs : List Byte) : (wrbytesWords index bs).Pairwise (· < ·) :=
  List.pairwise_lt_range.filter _

/-! ### The run of the moves -/

/-- The two moves of a `wrbytes` for the word `w`. -/
def wrbytesMoves (sel : Sel) (v index : Nat) (bs : List Byte) (w : Nat) : List HostMove :=
  [hostRd (selBase sel + 4 * w) v,
    .write (selBase sel + 4 * w) 0xF#4 (.merge v (wrbytesWord index bs w).1 (wrbytesWord index bs w).2)]

theorem hostWrBytes_eq (sel : Sel) (v index : Nat) (bs : List Byte) :
    hostWrBytes sel v index bs = (wrbytesWords index bs).flatMap (wrbytesMoves sel v index bs) := rfl

/-- `t` is `s` after a `wrbytes` has written back the words `ws` of the buffer: each byte it has for them is in place, and
nothing else has changed but PV and the host's side. -/
structure WordsWritten (sel : Sel) (index : Nat) (bs : List Byte) (ws : List Nat) (s t : State) : Prop where
  frame : t = { s with mem := t.mem, pv := t.pv, vars := t.vars, host := t.host, reply := t.reply }
  byteAt (a : Nat) : t.byteAt a =
    if selBase sel ≤ a ∧ (a - selBase sel) / 4 ∈ ws then (wrbytesByte index bs (a - selBase sel)).getD (s.byteAt a)
    else s.byteAt a

theorem WordsWritten.refl (sel : Sel) (index : Nat) (bs : List Byte) (s : State) : WordsWritten sel index bs [] s s where
  frame := rfl
  byteAt a := by simp

theorem WordsWritten.engine {sel : Sel} {index : Nat} {bs : List Byte} {ws : List Nat} {s t : State}
    (h : WordsWritten sel index bs ws s t) : t.engine = s.engine := by
  rw [h.frame]

theorem WordsWritten.cons {sel : Sel} {index : Nat} {bs : List Byte} {w : Nat} {ws : List Nat} {s u t : State}
    (h : WordsWritten sel index bs [w] s u) (h' : WordsWritten sel index bs ws u t) :
    WordsWritten sel index bs (w :: ws) s t where
  frame := by rw [h'.frame, h.frame]
  byteAt a := by
    rw [h'.byteAt, h.byteAt]
    by_cases hlo : selBase sel ≤ a
    · by_cases hw : (a - selBase sel) / 4 = w
      · cases wrbytesByte index bs (a - selBase sel) <;> simp [hlo, hw]
      · simp [hlo, hw]
    · simp [hlo]

/-- The word `w` read, merged and written back, byte by byte. -/
theorem byteAt_writeBack (s : State) (sel : Sel) (index : Nat) (bs : List Byte) (w a : Nat) :
    (s.writeBytes (selBase sel + 4 * w) (lanesOf (mergeLanes (s.wordAt (selBase sel + 4 * w)) (wrbytesWord index bs w).1
      (wrbytesWord index bs w).2))).byteAt a =
      if selBase sel ≤ a ∧ (a - selBase sel) / 4 ∈ [w] then (wrbytesByte index bs (a - selBase sel)).getD (s.byteAt a)
      else s.byteAt a := by
  simp only [List.mem_singleton]
  split
  case isTrue h =>
    obtain ⟨k, hk, rfl⟩ : ∃ k < 4, a = selBase sel + 4 * w + k := ⟨(a - selBase sel) % 4, by omega, by omega⟩
    rw [byteAt_writeBytes_lane s _ _ hk, laneOf_merge_wrbytesWord _ index bs w hk, laneOf_wordAt s _ hk, Nat.add_assoc,
      Nat.add_sub_cancel_left]
  case isFalse h =>
    rw [State.byteAt_writeBytes, dif_neg]
    simp only [lanesOf, List.length_cons, List.length_nil]
    omega

theorem run_two {s t u : State} (h : step s = .next t) (h' : step t = .next u) :
    Host.Core.run Sys2Proof.core 2 s = .next u :=
  (run_succ h 1).trans (run_succ h' 0)

theorem step_rdWord_of_idle {s : State} {sel : Sel} {w v : Nat} {rest : List HostMove} (hw : w < 128)
    (he : s.engine = .idle) (hh : s.host = hostRd (selBase sel + 4 * w) v :: rest) :
    step s = .next { s with
      vars := insertAt s.vars v (s.wordAt (selBase sel + 4 * w)), host := rest
      reply := some (.readData (s.wordAt (selBase sel + 4 * w)) .okay) } := by
  have hread := State.busRead_offsetOf { s with host := rest } (bufWord sel ⟨w, hw⟩)
  rw [offsetOf_bufWord, readReg_bufWord] at hread
  rw [step_host_cons (turn_of_idle he) hh, beginMove_of_idle he]
  simp only [hostRd, State.playMove, hread]
  rfl

theorem step_mergeWord_of_idle {s : State} {sel : Sel} {w v : Nat} {mask : BitVec 4} {data old : Word}
    {rest : List HostMove} (hw : w < 128) (he : s.engine = .idle) (hv : lookupAt s.vars v = some old)
    (hh : s.host = .write (selBase sel + 4 * w) 0xF#4 (.merge v mask data) :: rest) :
    step s = .next { s.writeBytes (selBase sel + 4 * w) (lanesOf (mergeLanes old mask data)) with
      pv := if sel = .rxb then .none else s.pv, host := rest, reply := some (.written .okay) } := by
  have hwrite := State.busWrite_offsetOf { s with host := rest } (bufWord sel ⟨w, hw⟩) (mergeLanes old mask data)
  rw [offsetOf_bufWord, writeReg_of_idle (s := { s with host := rest }) he, writeIdle_bufWord] at hwrite
  rw [step_host_cons (turn_of_idle he) hh, beginMove_of_idle he]
  simp only [State.playMove, State.hostValue, hv, hwrite]
  rfl

/-- The two moves of a word bring its bytes into place. -/
theorem run_wrbytesMoves_word {s : State} {sel : Sel} {v index : Nat} {bs : List Byte} {w : Nat} {rest : List HostMove}
    (hw : w < 128) (he : s.engine = .idle) (hh : s.host = wrbytesMoves sel v index bs w ++ rest) :
    ∃ t : State, Host.Core.run Sys2Proof.core 2 s = .next t ∧ t.host = rest ∧ WordsWritten sel index bs [w] s t := by
  have hread := step_rdWord_of_idle hw he hh
  have hset := (lookupAt_insertAt s.vars v v (s.wordAt (selBase sel + 4 * w))).trans (if_pos rfl)
  refine ⟨_, run_two hread (step_mergeWord_of_idle hw he hset rfl), rfl, rfl, fun a => ?_⟩
  exact byteAt_writeBack s sel index bs w a

/-- The moves for any list of the buffer's words bring the bytes of these words into place. -/
theorem run_wrbytesMoves (sel : Sel) (v index : Nat) (bs : List Byte) {ws : List Nat} (hws : ∀ w ∈ ws, w < 128)
    {s : State} {rest : List HostMove} (he : s.engine = .idle)
    (hh : s.host = ws.flatMap (wrbytesMoves sel v index bs) ++ rest) :
    ∃ t : State, Host.Core.run Sys2Proof.core (ws.flatMap (wrbytesMoves sel v index bs)).length s = .next t ∧
      t.host = rest ∧ WordsWritten sel index bs ws s t := by
  induction ws generalizing s with
  | nil => exact ⟨s, rfl, hh, .refl sel index bs s⟩
  | cons w ws ih =>
    obtain ⟨hw, hrest⟩ := List.forall_mem_cons.1 hws
    rw [List.flatMap_cons, List.append_assoc] at hh
    obtain ⟨u, hrun, hhost, hwritten⟩ := run_wrbytesMoves_word hw he hh
    obtain ⟨t, hrun', hhost', hwritten'⟩ := ih hrest (hwritten.engine.trans he) hhost
    refine ⟨t, ?_, hhost', hwritten.cons hwritten'⟩
    rw [List.flatMap_cons, List.length_append]
    exact (run_add hrun _).trans hrun'

/-- Settles O58: the run over exactly the words that hold an index, seen byte by byte. -/
theorem wrBytesReplacesExactlyThoseBytes : Obligations.WrBytesReplacesExactlyThoseBytes := by
  unfold Obligations.WrBytesReplacesExactlyThoseBytes
  refine ⟨fun s sel v index bs rest he hh => ?_, mem_wrbytesWords_iff, wrbytesWords_rising⟩
  rw [hostWrBytes_eq] at hh ⊢
  obtain ⟨t, hrun, hhost, hwritten⟩ := run_wrbytesMoves sel v index bs
    (fun w hw => ((mem_wrbytesWords_iff index bs w).1 hw).1) he hh
  refine ⟨t, hrun, ?_, fun j hj hlt => ?_, fun a ha => ?_⟩
  · rw [← hhost]
    exact hwritten.frame
  · have hmem := (mem_wrbytesWords_iff index bs ((index + j) / 4)).2 ⟨by omega, j, hj, rfl⟩
    rw [State.selByte, hwritten.byteAt, Nat.add_sub_cancel_left, if_pos ⟨Nat.le_add_right _ _, hmem⟩,
      wrbytesByte_index_add, List.getElem?_eq_getElem hj]
    rfl
  · rw [hwritten.byteAt, ite_eq_right_iff]
    rintro ⟨hlo, hword⟩
    have hlt := ((mem_wrbytesWords_iff index bs _).1 hword).1
    have hnone : wrbytesByte index bs (a - selBase sel) = none := by
      rw [← Option.not_isSome_iff_eq_none, wrbytesByte_isSome_iff]
      rintro ⟨j, hj, hi⟩
      exact ha (by omega)
    rw [hnone]
    rfl

end Sys2Proof.Machine
end

section
/-! PROOF. The checksum functions (41_checksum.md R110, R114): ADD8 is additive, a CRC bit step is linear and loses nothing, and
two trailer bytes bring the CRC register to 0 only when they are what it held. -/

namespace Sys2Proof.Machine

/-! ### ADD8 -/

theorem toNat_add8 (bs : List Byte) : (add8 bs).toNat = byteSum bs % 256 :=
  BitVec.toNat_ofNat _ _

theorem add8_cons (b : Byte) (bs : List Byte) : add8 (b :: bs) = b + add8 bs := by
  simp [add8, byteSum, BitVec.ofNat_add]

theorem add8_append (bs bs' : List Byte) : add8 (bs ++ bs') = add8 bs + add8 bs' := by
  induction bs with
  | nil => simp [add8, byteSum]
  | cons b bs ih => rw [List.cons_append, add8_cons, add8_cons, ih, BitVec.add_assoc]

/-- RESULT of the ADD8 operations: the sum modulo 256. -/
theorem toNat_setWidth_add8 (bs : List Byte) : ((add8 bs).setWidth 32).toNat = byteSum bs % 256 := by
  rw [BitVec.toNat_setWidth_of_le (by decide), toNat_add8]

/-! ### The CRC16 trailer -/

/-- The trailer holds the CRC, its low byte first. -/
theorem eq_crcTrailer_iff (lo hi : Byte) (c : Half) : [lo, hi] = crcTrailer c ↔ hi ++ lo = c := by
  have hparts : c.extractLsb' 8 8 ++ c.extractLsb' 0 8 = c := by
    rw [BitVec.extractLsb'_append_extractLsb'_eq_extractLsb' (by decide)]
    exact BitVec.extractLsb'_eq_self
  simp only [crcTrailer, List.cons.injEq, and_true]
  constructor
  · rintro ⟨rfl, rfl⟩
    exact hparts
  · rintro rfl
    exact ⟨BitVec.extractLsb'_append_eq_right.symm, BitVec.extractLsb'_append_eq_left.symm⟩

theorem toNat_append_byte (hi lo : Byte) : (hi ++ lo).toNat = lo.toNat + 256 * hi.toNat := by
  rw [BitVec.toNat_append, Nat.shiftLeft_eq_mul_pow, Nat.mul_comm, ← Nat.two_pow_add_eq_or_of_lt lo.isLt, Nat.add_comm]

theorem eq_crcTrailer_iff_toNat (lo hi : Byte) (c : Half) :
    [lo, hi] = crcTrailer c ↔ lo.toNat + 256 * hi.toNat = c.toNat := by
  rw [eq_crcTrailer_iff, ← BitVec.toNat_inj, toNat_append_byte]

/-! ### CRC bit steps -/

/-- The bit that a step shifts out, fed back through the polynomial. -/
def crcFeedback (b : Bool) : Half :=
  if b then 0xA001#16 else 0#16

theorem crcFeedback_xor : ∀ b b' : Bool, crcFeedback (b ^^ b') = crcFeedback b ^^^ crcFeedback b' := by decide

theorem crcBit_eq (c : Half) : crcBit c = c >>> 1 ^^^ crcFeedback (c.getLsbD 0) := by
  unfold crcBit
  cases c.getLsbD 0
  · exact (BitVec.xor_zero (x := c >>> 1)).symm
  · rfl

theorem crcBit_of_even {c : Half} (h : c.getLsbD 0 = false) : crcBit c = c >>> 1 := by
  rw [crcBit_eq, h]
  exact BitVec.xor_zero

theorem crcBit_xor (c d : Half) : crcBit (c ^^^ d) = crcBit c ^^^ crcBit d := by
  simp only [crcBit_eq, BitVec.ushiftRight_xor_distrib, BitVec.getLsbD_xor, crcFeedback_xor]
  ac_rfl

/-- The polynomial's top bit keeps the bit that a step shifts out. -/
theorem getLsbD_crcBit_top (c : Half) : (crcBit c).getLsbD 15 = c.getLsbD 0 := by
  rw [crcBit_eq, BitVec.getLsbD_xor, BitVec.getLsbD_ushiftRight, BitVec.getLsbD_of_ge c _ (by decide), Bool.false_xor]
  cases c.getLsbD 0 <;> rfl

theorem crcBit_eq_zero {c : Half} (h : crcBit c = 0#16) : c = 0#16 := by
  have hlow : c.getLsbD 0 = false := by rw [← getLsbD_crcBit_top, h, BitVec.getLsbD_zero]
  rw [crcBit_of_even hlow] at h
  have hhigh : c.toNat / 2 = 0 := by rw [← Nat.shiftRight_one, ← BitVec.toNat_ushiftRight, h, BitVec.toNat_zero]
  have heven : c.toNat % 2 = 0 := by simpa [BitVec.getLsbD] using hlow
  exact BitVec.eq_of_toNat_eq (by rw [BitVec.toNat_zero]; omega)

theorem crcBits_xor (n : Nat) (c d : Half) : crcBits n (c ^^^ d) = crcBits n c ^^^ crcBits n d := by
  induction n generalizing c d with
  | zero => rfl
  | succ n ih => rw [crcBits, crcBit_xor, ih, crcBits, crcBits]

theorem crcBits_eq_zero {n : Nat} {c : Half} (h : crcBits n c = 0#16) : c = 0#16 := by
  induction n generalizing c with
  | zero => exact h
  | succ n ih => exact crcBit_eq_zero (ih h)

/-- Bit steps lose nothing. -/
theorem crcBits_injective (n : Nat) : Function.Injective (crcBits n) := fun c d h => by
  rw [← BitVec.xor_eq_zero_iff, ← crcBits_xor] at h
  exact BitVec.xor_eq_zero_iff.1 (crcBits_eq_zero h)

/-- Bit steps over zeros only shift. -/
theorem crcBits_shiftLeft {n : Nat} {c : Half} (h : c.toNat * 2 ^ n < 2 ^ 16) : crcBits n (c <<< n) = c := by
  induction n with
  | zero => exact BitVec.shiftLeft_zero c
  | succ n ih =>
    have hshift : (c <<< (n + 1)).toNat = c.toNat * 2 ^ n * 2 := by
      rw [BitVec.toNat_shiftLeft, Nat.shiftLeft_eq, Nat.mod_eq_of_lt h, Nat.pow_succ, Nat.mul_assoc]
    rw [Nat.pow_succ, ← Nat.mul_assoc] at h
    have hstep : crcBit (c <<< (n + 1)) = c <<< n := by
      rw [crcBit_of_even (by simp)]
      apply BitVec.eq_of_toNat_eq
      rw [BitVec.toNat_ushiftRight, hshift, BitVec.toNat_shiftLeft, Nat.shiftLeft_eq, Nat.mod_eq_of_lt (by omega),
        Nat.shiftRight_one, Nat.mul_div_cancel _ (by decide)]
    rw [crcBits, hstep, ih (by omega)]

/-! ### The residue -/

/-- A byte brings the register to 0 exactly when it equals it. -/
theorem crcByte_eq_zero_iff (c : Half) (b : Byte) : crcByte c b = 0#16 ↔ c = b.setWidth 16 := by
  constructor
  · exact fun h => BitVec.xor_eq_zero_iff.1 (crcBits_eq_zero h)
  · rintro rfl
    rw [crcByte, BitVec.xor_self]
    decide

theorem append_eq_shiftLeft_xor (hi lo : Byte) : hi ++ lo = hi.setWidth 16 <<< 8 ^^^ lo.setWidth 16 := by
  refine BitVec.eq_of_getLsbD_eq fun k hk => ?_
  simp only [BitVec.getLsbD_append, BitVec.getLsbD_xor, BitVec.getLsbD_shiftLeft, BitVec.getLsbD_setWidth]
  grind

/-- The eight steps of one byte leave another byte exactly when the two made up the register. -/
theorem crcByte_eq_setWidth_iff (c : Half) (lo hi : Byte) : crcByte c lo = hi.setWidth 16 ↔ c = hi ++ lo := by
  have hhi : crcBits 8 (hi.setWidth 16 <<< 8) = hi.setWidth 16 := by
    refine crcBits_shiftLeft ?_
    rw [BitVec.toNat_setWidth_of_le (by decide)]
    have := hi.isLt
    omega
  calc crcByte c lo = hi.setWidth 16
      ↔ crcBits 8 (c ^^^ lo.setWidth 16) = crcBits 8 (hi.setWidth 16 <<< 8) := by rw [hhi, crcByte]
    _ ↔ c ^^^ lo.setWidth 16 = hi.setWidth 16 <<< 8 := (crcBits_injective 8).eq_iff
    _ ↔ c = hi ++ lo := by rw [xor_eq_iff_left_eq, append_eq_shiftLeft_xor]

/-- Settles O18: the last byte clears the register only if it is left of the CRC after the first. -/
theorem crcOfFrameWithTrailerIsZero : Obligations.CrcOfFrameWithTrailerIsZero := by
  unfold Obligations.CrcOfFrameWithTrailerIsZero
  intro bs lo hi
  have hfold : crc16 (bs ++ [lo, hi]) = crcByte (crcByte (crc16 bs) lo) hi := List.foldl_append
  rw [hfold, crcByte_eq_zero_iff, crcByte_eq_setWidth_iff, eq_crcTrailer_iff, eq_comm]

end Sys2Proof.Machine
end

section
/-! PROOF. The checksum operations (41_checksum.md R111-R118), each in one equation. -/

namespace Sys2Proof.Machine

@[simp] theorem State.selLen_finish (s : State) (sel : Sel) (e : Err) (b : Bool) (w : Word) :
    (s.finish e b w).selLen sel = s.selLen sel := by
  cases sel <;> rfl

@[simp] theorem State.selByte_finish (s : State) (sel : Sel) (e : Err) (b : Bool) (w : Word) (n : Nat) :
    (s.finish e b w).selByte sel n = s.selByte sel n := rfl

theorem State.readBytes_finish (s : State) (e : Err) (b : Bool) (w : Word) (a n : Nat) :
    (s.finish e b w).readBytes a n = s.readBytes a n :=
  State.readBytes_congr s _ a n fun _ _ => rfl

@[simp] theorem State.selBytes_finish (s : State) (sel : Sel) (e : Err) (b : Bool) (w : Word) (n : Nat) :
    (s.finish e b w).selBytes sel n = s.selBytes sel n :=
  s.readBytes_finish e b w _ n

@[simp] theorem State.selBytes_zero (s : State) (sel : Sel) : s.selBytes sel 0 = [] := rfl

theorem exec_ckSum8 (sel : Sel) (s : State) : exec (.ckSum8 sel) s =
    .next (s.finish .none true ((add8 (s.selBytes sel ((s.selLen sel).val - 1))).setWidth 32)) := by
  change execCkSum8 sel s = _
  unfold execCkSum8
  by_cases h : (s.selLen sel).val = 0
  · simp [h, add8, byteSum]
  · simp [h]

theorem exec_ckCrc16 (sel : Sel) (s : State) : exec (.ckCrc16 sel) s =
    .next (s.finish .none true ((crc16 (s.selBytes sel ((s.selLen sel).val - 2))).setWidth 32)) := by
  have hbody : (if 2 ≤ (s.selLen sel).val then (s.selLen sel).val - 2 else 0) = (s.selLen sel).val - 2 := by
    split <;> omega
  change execCkCrc16 sel s = _
  simp only [execCkCrc16, hbody]

theorem exec_ckCheck8_of_empty {sel : Sel} {s : State} (h : (s.selLen sel).val = 0) :
    exec (.ckCheck8 sel) s = .next (s.raise .noResponse) :=
  if_pos h

theorem exec_ckCheck8_of_len {sel : Sel} {s : State} {n : Nat} (h : (s.selLen sel).val = n + 1) : exec (.ckCheck8 sel) s =
    .next (s.finish .none (s.selByte sel n == add8 (s.selBytes sel n)) ((add8 (s.selBytes sel n)).setWidth 32)) := by
  change execCkCheck8 sel s = _
  simp [execCkCheck8, h]

theorem exec_ckCheck16_of_empty {sel : Sel} {s : State} (h : (s.selLen sel).val = 0) :
    exec (.ckCheck16 sel) s = .next (s.raise .noResponse) :=
  if_pos h

theorem exec_ckCheck16_of_one {sel : Sel} {s : State} (h : (s.selLen sel).val = 1) :
    exec (.ckCheck16 sel) s = .next (s.raise .incomplete) :=
  (if_neg (by omega)).trans (if_pos h)

theorem exec_ckCheck16_of_len {sel : Sel} {s : State} {n : Nat} (h : (s.selLen sel).val = n + 2) :
    exec (.ckCheck16 sel) s = .next (s.finish .none
      ([s.selByte sel n, s.selByte sel (n + 1)] == crcTrailer (crc16 (s.selBytes sel n)))
      ((crc16 (s.selBytes sel n)).setWidth 32)) := by
  change execCkCheck16 sel s = _
  simp [execCkCheck16, h, crcTrailer]

/-- Settles O10: the operation's equation, the empty sum at lengths 0 and 1. -/
theorem ckSum8SumsAllButTheLast : Obligations.CkSum8SumsAllButTheLast := by
  unfold Obligations.CkSum8SumsAllButTheLast
  refine fun sel s => ⟨_, exec_ckSum8 sel s, rfl, toNat_setWidth_add8 _, fun h => ?_⟩
  rw [Nat.sub_eq_zero_of_le h]
  rfl

/-- Settles O13: the operation's equation, the CRC of no bytes at lengths up to 2. -/
theorem ckCrc16CoversAllButTheTrailer : Obligations.CkCrc16CoversAllButTheTrailer := by
  unfold Obligations.CkCrc16CoversAllButTheTrailer
  refine fun sel s => ⟨_, exec_ckCrc16 sel s, rfl, rfl, fun h => ?_⟩
  rw [Nat.sub_eq_zero_of_le h]
  rfl

/-- Settles O11: an empty buffer, or a last byte after `n` others. -/
theorem ckCheck8ComparesTheLastByte : Obligations.CkCheck8ComparesTheLastByte := by
  unfold Obligations.CkCheck8ComparesTheLastByte
  intro sel s
  cases h : (s.selLen sel).val with
  | zero => exact ⟨_, exec_ckCheck8_of_empty h, rfl, fun _ => ⟨rfl, rfl, rfl⟩, fun hpos => by omega⟩
  | succ n =>
    refine ⟨_, exec_ckCheck8_of_len h, rfl, fun hzero => by omega, fun _ => ⟨rfl, toNat_setWidth_add8 _, ?_⟩⟩
    rw [State.finish_res, State.finish_result, toNat_setWidth_add8, ← toNat_add8, BitVec.toNat_inj, beq_iff_eq,
      Nat.add_sub_cancel]

/-- Settles O14: lengths 0 and 1, or a trailer after `n` bytes. -/
theorem ckCheck16ComparesTheTrailer : Obligations.CkCheck16ComparesTheTrailer := by
  unfold Obligations.CkCheck16ComparesTheTrailer
  intro sel s
  match h : (s.selLen sel).val with
  | 0 => exact ⟨_, exec_ckCheck16_of_empty h, rfl, fun _ => ⟨rfl, rfl, rfl⟩, fun _ => by omega, fun _ => by omega⟩
  | 1 => exact ⟨_, exec_ckCheck16_of_one h, rfl, fun _ => by omega, fun _ => ⟨rfl, rfl, rfl⟩, fun _ => by omega⟩
  | n + 2 =>
    refine ⟨_, exec_ckCheck16_of_len h, rfl, fun _ => by omega, fun _ => by omega, fun _ => ⟨rfl, rfl, ?_⟩⟩
    rw [State.finish_res, State.finish_result, beq_iff_eq, eq_crcTrailer_iff_toNat, BitVec.toNat_setWidth_of_le (by decide)]
    rfl

/-! ### Appends -/

theorem State.selLen_append_val {s : State} {sel : Sel} {bs : List Byte} (fits : (s.selLen sel).val + bs.length ≤ 512) :
    ((s.append sel bs).selLen sel).val = (s.selLen sel).val + bs.length := by
  rw [State.selLen_append]
  exact Nat.min_eq_left fits

/-- The appended bytes stand from the old length on. -/
theorem State.selByte_append (s : State) (sel : Sel) (bs : List Byte) {j : Nat} (hj : j < bs.length) :
    (s.append sel bs).selByte sel ((s.selLen sel).val + j) = bs[j] := by
  rw [State.selByte, State.byteAt_append, dif_pos (by omega)]
  congr 1
  omega

theorem State.selByte_append_crcTrailer (s : State) (sel : Sel) (c : Half) :
    [(s.append sel (crcTrailer c)).selByte sel (s.selLen sel).val,
      (s.append sel (crcTrailer c)).selByte sel ((s.selLen sel).val + 1)] = crcTrailer c :=
  congrArg₂ (fun lo hi => [lo, hi]) (s.selByte_append sel (crcTrailer c) (j := 0) Nat.two_pos)
    (s.selByte_append sel (crcTrailer c) (j := 1) Nat.one_lt_two)

/-- An append completed changes no register but the selected length, and PV for RXB. -/
theorem finish_append_eq (s : State) (sel : Sel) (bs : List Byte) (w : Word) :
    (s.append sel bs).finish .none true w = { s with
      engine := .idle, done := true, err := .none, res := true, result := w, mem := (s.append sel bs).mem
      rxlen := if sel = .rxb then (s.append sel bs).rxlen else s.rxlen
      txlen := if sel = .txb then (s.append sel bs).txlen else s.txlen
      pv := if sel = .rxb then .none else s.pv } := by
  cases sel <;> rfl

/-- Settles O12: full, or an append of one byte. -/
theorem ckAppend8AppendsTheSum : Obligations.CkAppend8AppendsTheSum := by
  unfold Obligations.CkAppend8AppendsTheSum
  intro sel s
  obtain ⟨h, hx⟩ | ⟨h, hx⟩ := execCkAppend8_cases sel s
  · exact ⟨fun _ => hx, fun hne => absurd h hne⟩
  · refine ⟨fun hfull => by omega, fun _ =>
      ⟨_, hx, finish_append_eq s sel _ _, ?_, toNat_setWidth_add8 _, ?_, fun a ha => ?_⟩⟩
    · rw [State.selLen_finish]
      exact State.selLen_append_val h
    · rw [State.selByte_finish, State.finish_result, toNat_setWidth_add8, ← toNat_add8]
      exact congrArg BitVec.toNat (s.selByte_append sel [_] (j := 0) Nat.one_pos)
    · rw [State.byteAt_finish, byteAt_append_singleton, if_neg ha]

/-- Settles O15: no room, or an append of the two trailer bytes. -/
theorem ckAppend16AppendsTheCrc : Obligations.CkAppend16AppendsTheCrc := by
  unfold Obligations.CkAppend16AppendsTheCrc
  intro sel s
  obtain ⟨h, hx⟩ | ⟨h, hx⟩ := execCkAppend16_cases sel s
  · exact ⟨fun _ => hx, fun hroom => by omega⟩
  · refine ⟨fun hfull => by omega, fun _ => ⟨_, hx, finish_append_eq s sel _ _, ?_, rfl, ?_, fun a h0 h1 => ?_⟩⟩
    · rw [State.selLen_finish]
      exact State.selLen_append_val (Nat.add_le_add_right h 2)
    · rw [State.selByte_finish, State.selByte_finish, State.finish_result, BitVec.toNat_setWidth_of_le (by decide),
        ← eq_crcTrailer_iff_toNat]
      exact s.selByte_append_crcTrailer sel _
    · rw [State.byteAt_finish, State.byteAt_append, dif_neg (by rw [length_crcTrailer]; omega)]

/-! ### An append followed by its check -/

/-- An append leaves the bytes below the old length as they were. -/
theorem State.selBytes_append (s : State) (sel : Sel) (bs : List Byte) :
    (s.append sel bs).selBytes sel (s.selLen sel).val = s.selBytes sel (s.selLen sel).val :=
  State.readBytes_congr s _ _ _ fun j hj => by rw [State.byteAt_append, dif_neg (by omega)]

/-- CK_CHECK8 after any byte was appended compares that byte. -/
theorem exec_ckCheck8_append {sel : Sel} {s : State} (h : (s.selLen sel).val < 512) (b : Byte) (e : Err) (r : Bool)
    (w : Word) :
    exec (.ckCheck8 sel) ((s.append sel [b]).finish e r w) =
      .next ((s.append sel [b]).finish .none (b == add8 (s.selBytes sel (s.selLen sel).val))
        ((add8 (s.selBytes sel (s.selLen sel).val)).setWidth 32)) := by
  have hlen : (((s.append sel [b]).finish e r w).selLen sel).val = (s.selLen sel).val + 1 := by
    rw [State.selLen_finish]
    exact State.selLen_append_val h
  have hlast : (s.append sel [b]).selByte sel (s.selLen sel).val = b := s.selByte_append sel [b] (j := 0) Nat.one_pos
  rw [exec_ckCheck8_of_len hlen, State.selByte_finish, State.selBytes_finish, hlast, State.selBytes_append]
  rfl

/-- CK_CHECK16 after any trailer was appended compares that trailer. -/
theorem exec_ckCheck16_append {sel : Sel} {s : State} (h : (s.selLen sel).val ≤ 510) (c : Half) (e : Err) (r : Bool)
    (w : Word) :
    exec (.ckCheck16 sel) ((s.append sel (crcTrailer c)).finish e r w) =
      .next ((s.append sel (crcTrailer c)).finish .none
        (crcTrailer c == crcTrailer (crc16 (s.selBytes sel (s.selLen sel).val)))
        ((crc16 (s.selBytes sel (s.selLen sel).val)).setWidth 32)) := by
  have hlen : (((s.append sel (crcTrailer c)).finish e r w).selLen sel).val = (s.selLen sel).val + 2 := by
    rw [State.selLen_finish]
    exact State.selLen_append_val (Nat.add_le_add_right h 2)
  rw [exec_ckCheck16_of_len hlen, State.selByte_finish, State.selByte_finish, State.selBytes_finish,
    State.selByte_append_crcTrailer, State.selBytes_append]
  rfl

/-- Settles O16: the appended checksum is of the bytes that the check covers. -/
theorem appendThenCheckIsValid : Obligations.AppendThenCheckIsValid := by
  unfold Obligations.AppendThenCheckIsValid
  refine fun sel s t => ⟨fun h ht => ?_, fun h ht => ?_⟩
  · obtain ⟨-, hx⟩ | ⟨hl, hx⟩ := execCkAppend8_cases sel s <;> cases hx.symm.trans h
    · exact absurd rfl ht
    · exact ⟨_, exec_ckCheck8_append hl _ _ _ _, rfl, beq_self_eq_true _, rfl⟩
  · obtain ⟨-, hx⟩ | ⟨hl, hx⟩ := execCkAppend16_cases sel s <;> cases hx.symm.trans h
    · exact absurd rfl ht
    · exact ⟨_, exec_ckCheck16_append hl _ _ _ _, rfl, beq_self_eq_true _, rfl⟩

end Sys2Proof.Machine
end

section
/-! PROOF. Bit flips against ADD8 (41_checksum.md R120): a flip moves the sum of the body by a power of two, or it moves the
checksum byte; either way the two no longer agree, unless two flips move the sum by 256. -/

namespace Sys2Proof.Machine

/-! ### One bit of a byte -/

theorem xor_bit_ne (b : Byte) {k : Nat} (hk : k < 8) : b ^^^ 1#8 <<< k ≠ b := by
  intro h
  have hbit := congrArg (BitVec.getLsbD · k) h
  simp [hk] at hbit

theorem xor_bit_of_clear {b : Byte} {k : Nat} (h : b.getLsbD k = false) : b ^^^ 1#8 <<< k = b + 1#8 <<< k := by
  rw [← BitVec.twoPow_eq]
  have hdisjoint : b &&& BitVec.twoPow 8 k = 0#8 := by
    rw [BitVec.and_twoPow, h]
    rfl
  rw [BitVec.add_eq_or_of_and_eq_zero b _ hdisjoint]
  refine BitVec.eq_of_getLsbD_eq fun i _ => ?_
  rw [BitVec.getLsbD_xor, BitVec.getLsbD_or, BitVec.getLsbD_twoPow]
  grind

/-- A flip adds a power of two or takes it away, modulo 256. -/
theorem xor_bit_cases (b : Byte) {k : Nat} (hk : k < 8) :
    b ^^^ 1#8 <<< k = b + 1#8 <<< k ∨ b = (b ^^^ 1#8 <<< k) + 1#8 <<< k := by
  cases h : b.getLsbD k
  · exact .inl (xor_bit_of_clear h)
  · have hclear : (b ^^^ 1#8 <<< k).getLsbD k = false := by simp [h, hk]
    exact .inr ((xor_cancel_right b _).symm.trans (xor_bit_of_clear hclear))

theorem toNat_bit {k : Nat} (hk : k < 8) : (1#8 <<< k).toNat = 2 ^ k := by
  rw [← BitVec.twoPow_eq, BitVec.toNat_twoPow_of_lt hk]

/-! ### One bit of a buffer -/

@[simp] theorem selLen_flipBit (sel sel' : Sel) (s : State) (j k : Nat) : (flipBit sel s j k).selLen sel' = s.selLen sel' := by
  cases sel' <;> rfl

theorem selByte_flipBit (sel : Sel) (s : State) (j k i : Nat) :
    (flipBit sel s j k).selByte sel i = if i = j then s.selByte sel j ^^^ 1#8 <<< k else s.selByte sel i := by
  rw [State.selByte, flipBit, State.byteAt_writeBytes]
  by_cases h : i = j
  · simp [h]
  · rw [if_neg h, dif_neg (by rw [List.length_singleton]; omega)]
    rfl

/-- The bytes below `n` as those below `j`, byte `j`, and those above it. -/
theorem selBytes_eq_append (s : State) (sel : Sel) {j n : Nat} (h : j < n) :
    s.selBytes sel n = s.selBytes sel j ++ s.selByte sel j :: s.readBytes (selBase sel + (j + 1)) (n - (j + 1)) := by
  obtain ⟨m, rfl⟩ := Nat.exists_eq_add_of_lt h
  have hlen : j + m + 1 - (j + 1) = m := by omega
  rw [hlen, State.selBytes, Nat.add_assoc, State.readBytes_add]
  rfl

theorem selBytes_flipBit_of_le (sel : Sel) (s : State) {j n : Nat} (k : Nat) (h : n ≤ j) :
    (flipBit sel s j k).selBytes sel n = s.selBytes sel n :=
  s.readBytes_writeBytes_of_disjoint _ _ _ _ (.inl (by omega))

/-- A flip in the body moves the sum by what it moves the byte. -/
theorem add8_flipBit (sel : Sel) (s : State) {j n : Nat} (k : Nat) (h : j < n) :
    add8 ((flipBit sel s j k).selBytes sel n) + s.selByte sel j =
      add8 (s.selBytes sel n) + (s.selByte sel j ^^^ 1#8 <<< k) := by
  have habove : (flipBit sel s j k).readBytes (selBase sel + (j + 1)) (n - (j + 1)) =
      s.readBytes (selBase sel + (j + 1)) (n - (j + 1)) :=
    s.readBytes_writeBytes_of_disjoint _ _ _ _ (.inr (by simp [Nat.add_assoc]))
  rw [selBytes_eq_append _ sel h, selBytes_eq_append s sel h, selBytes_flipBit_of_le sel s k le_rfl, selByte_flipBit,
    if_pos rfl, habove]
  simp only [add8_append, add8_cons]
  ring

theorem add8_flipBit_of_clear {sel : Sel} {s : State} {j n k : Nat} (h : j < n) (hbit : (s.selByte sel j).getLsbD k = false) :
    add8 ((flipBit sel s j k).selBytes sel n) = add8 (s.selBytes sel n) + 1#8 <<< k := by
  linear_combination add8_flipBit sel s k h + xor_bit_of_clear hbit

/-- A flip in the body moves the sum up or down by a power of two, modulo 256. -/
theorem add8_flipBit_cases (sel : Sel) (s : State) {j n k : Nat} (h : j < n) (hk : k < 8) :
    add8 ((flipBit sel s j k).selBytes sel n) = add8 (s.selBytes sel n) + 1#8 <<< k ∨
      add8 (s.selBytes sel n) = add8 ((flipBit sel s j k).selBytes sel n) + 1#8 <<< k := by
  obtain hbit | hbit := xor_bit_cases (s.selByte sel j) hk
  · exact .inl (by linear_combination add8_flipBit sel s k h + hbit)
  · exact .inr (by linear_combination hbit - add8_flipBit sel s k h)

/-- The blind spot: two flips of a clear bit 7 add 256. -/
theorem add8_flipBit_flipBit {sel : Sel} {s : State} {j j' n : Nat} (hlt : j < j') (hn : j' < n)
    (hbit : (s.selByte sel j).getLsbD 7 = false) (hbit' : (s.selByte sel j').getLsbD 7 = false) :
    add8 ((flipBit sel (flipBit sel s j 7) j' 7).selBytes sel n) = add8 (s.selBytes sel n) := by
  have hkept : ((flipBit sel s j 7).selByte sel j').getLsbD 7 = false := by rwa [selByte_flipBit, if_neg hlt.ne']
  have htwice : (1#8 <<< 7) + (1#8 <<< 7) = 0#8 := by decide
  rw [add8_flipBit_of_clear hn hkept, add8_flipBit_of_clear (hlt.trans hn) hbit, BitVec.add_assoc, htwice, BitVec.add_zero]

/-! ### The check of a flipped frame -/

/-- An ADD8-valid frame: a last byte, and the sum of the others in it. -/
theorem exists_of_ckCheck8_valid {sel : Sel} {s t : State} (h : exec (.ckCheck8 sel) s = .next t) (ht : t.res = true) :
    ∃ n, (s.selLen sel).val = n + 1 ∧ s.selByte sel n = add8 (s.selBytes sel n) ∧
      t.result = (add8 (s.selBytes sel n)).setWidth 32 := by
  cases hlen : (s.selLen sel).val with
  | zero =>
    cases (exec_ckCheck8_of_empty hlen).symm.trans h
    cases ht
  | succ n =>
    cases (exec_ckCheck8_of_len hlen).symm.trans h
    exact ⟨n, rfl, by simpa using ht, rfl⟩

theorem exec_ckCheck8_flipBit {sel : Sel} {s : State} {n : Nat} (h : (s.selLen sel).val = n + 1) (j k : Nat) :
    exec (.ckCheck8 sel) (flipBit sel s j k) = .next ((flipBit sel s j k).finish .none
      ((flipBit sel s j k).selByte sel n == add8 ((flipBit sel s j k).selBytes sel n))
      ((add8 ((flipBit sel s j k).selBytes sel n)).setWidth 32)) :=
  exec_ckCheck8_of_len (by rwa [selLen_flipBit])

theorem toNat_setWidth_of_eq_add_bit {x y : Byte} {k : Nat} (hk : k < 8) (h : x = y + 1#8 <<< k) :
    (x.setWidth 32).toNat = ((y.setWidth 32).toNat + 2 ^ k) % 256 := by
  rw [BitVec.toNat_setWidth_of_le (by decide), BitVec.toNat_setWidth_of_le (by decide), h, BitVec.toNat_add, toNat_bit hk]

theorem ne_of_eq_add_bit {x y : Byte} {k : Nat} (hk : k < 8) (h : x = y + 1#8 <<< k) : x ≠ y := by
  rintro rfl
  have hzero := congrArg BitVec.toNat (left_eq_add.1 h)
  rw [toNat_bit hk] at hzero
  exact absurd hzero (by simp)

/-- Settles O17: the flipped byte is in the body or is the checksum byte; two flips of bit 7 add 256. -/
theorem singleBitFlipsAreDetected : Obligations.SingleBitFlipsAreDetected := by
  unfold Obligations.SingleBitFlipsAreDetected
  intro sel s t h ht
  obtain ⟨n, hlen, hvalid, hresult⟩ := exists_of_ckCheck8_valid h ht
  rw [hlen, hresult]
  refine ⟨fun j k hj hk => ⟨_, exec_ckCheck8_flipBit hlen j k, rfl, ?_⟩, fun j j' hjj' hj' hbit hbit' =>
    ⟨_, exec_ckCheck8_flipBit ((selLen_flipBit sel sel s j 7).symm ▸ hlen) j' 7, ?_⟩⟩
  · rw [State.finish_res, State.finish_result, beq_eq_false_iff_ne, selByte_flipBit]
    obtain hbody | rfl : j < n ∨ n = j := by omega
    · rw [if_neg hbody.ne', hvalid]
      obtain hsum | hsum := add8_flipBit_cases sel s hbody hk
      · exact ⟨(ne_of_eq_add_bit hk hsum).symm, fun hlast => by omega,
          fun _ => .inl (toNat_setWidth_of_eq_add_bit hk hsum)⟩
      · exact ⟨ne_of_eq_add_bit hk hsum, fun hlast => by omega,
          fun _ => .inr (toNat_setWidth_of_eq_add_bit hk hsum)⟩
    · rw [if_pos rfl, selBytes_flipBit_of_le sel s k le_rfl, ← hvalid]
      exact ⟨xor_bit_ne _ hk, fun _ => rfl, fun hbody => by omega⟩
  · rw [State.finish_res, beq_iff_eq, add8_flipBit_flipBit hjj' (Nat.lt_of_succ_lt_succ hj') hbit hbit', selByte_flipBit,
      if_neg (by omega), selByte_flipBit, if_neg (by omega), hvalid]

end Sys2Proof.Machine
end

section
/-! PROOF. CTRL.MBCK and the Vendor-B operations (41_checksum.md R121): none of them reads it, and each hands it on. -/

namespace Sys2Proof.Machine

/-- `s` with another CTRL.MBCK. -/
def State.withMbck (s : State) (b : Bool) : State :=
  { s with mbck := b }

@[simp] theorem State.readBytes_withMbck (s : State) (b : Bool) (a n : Nat) : (s.withMbck b).readBytes a n = s.readBytes a n :=
  State.readBytes_congr s _ a n fun _ _ => rfl

@[simp] theorem State.rxlen_withMbck (s : State) (b : Bool) : (s.withMbck b).rxlen = s.rxlen := rfl

@[simp] theorem State.pv_withMbck (s : State) (b : Bool) : (s.withMbck b).pv = s.pv := rfl

@[simp] theorem State.rxByte_withMbck (s : State) (b : Bool) (n : Nat) : (s.withMbck b).rxByte n = s.rxByte n := rfl

@[simp] theorem State.vbBound_withMbck (s : State) (b : Bool) (c : Byte) : (s.withMbck b).vbBound c = s.vbBound c := rfl

theorem execVbParse_withMbck {c : Byte} {s t : State} (b : Bool) (h : execVbParse c s = .next t) :
    execVbParse c (s.withMbck b) = .next (t.withMbck b) := by
  unfold execVbParse at h ⊢
  simp only [State.readBytes_withMbck, State.rxlen_withMbck, State.rxByte_withMbck, State.vbBound_withMbck] at h ⊢
  split_ifs at h ⊢
  all_goals
    cases h
    rfl

theorem vbRaw_withMbck (s : State) (b : Bool) : vbRaw (s.withMbck b) = vbRaw s := by
  funext i
  simp only [vbRaw, State.readBytes_withMbck]
  rfl

theorem endDecode_withMbck (s : State) (b odd trunc : Bool) (r : Except (Reason × Fin 32) DecodeWork) :
    (s.withMbck b).endDecode odd trunc r = (s.endDecode odd trunc r).withMbck b := by
  cases r <;> rfl

theorem execFdDecodeVb_withMbck {s t : State} (b : Bool) (h : execFdDecodeVb s = .next t) :
    execFdDecodeVb (s.withMbck b) = .next (t.withMbck b) := by
  unfold execFdDecodeVb at h ⊢
  simp only [State.pv_withMbck, vbRaw_withMbck, endDecode_withMbck] at h ⊢
  split_ifs at h ⊢
  all_goals
    cases h
    rfl

/-- Settles O26: the buffers and the tables read the same under either MBCK. -/
theorem vendorBIgnoresMbck : Obligations.VendorBIgnoresMbck := by
  unfold Obligations.VendorBIgnoresMbck
  rintro s t i b (⟨c, rfl | rfl | rfl⟩ | rfl | rfl) h
  · cases h
    rfl
  · cases h
    rfl
  · exact execVbParse_withMbck b h
  · exact execFdDecodeVb_withMbck b h
  · cases h
    rfl

end Sys2Proof.Machine
end

section
/-! PROOF. Frames in the buffers: a built frame read back from TXB, a received frame read from RXB, and the trailer of the
Modbus-style codec as a number (42_frame_modbus.md R132). -/

namespace Sys2Proof.Machine

/-! ### Bytes of a frame -/

theorem be16_extractLsb' (w : Half) : be16 (w.extractLsb' 8 8) (w.extractLsb' 0 8) = w.toNat := by
  rw [← (eq_crcTrailer_iff_toNat _ _ w).1 rfl, be16]
  omega

/-- The first bytes of a longer read. -/
theorem State.readBytes_eq_take {s : State} {a n : Nat} {bs : List Byte} (h : s.readBytes a n = bs) {m : Nat} (hm : m ≤ n) :
    s.readBytes a m = bs.take m := by
  obtain ⟨k, rfl⟩ := Nat.exists_eq_add_of_le hm
  rw [← h, State.readBytes_add, List.take_left' (State.length_readBytes s a m)]

theorem State.rxByte_eq_getElem {s : State} {n : Nat} {bs : List Byte} (h : s.readBytes Config.rxBase n = bs) {j : Nat}
    (hj : j < bs.length) : s.rxByte j = bs[j] := by
  subst h
  exact (State.getElem_readBytes s _ n j hj).symm

theorem State.txByte_putFrame (s : State) (bs : List Byte) {j : Nat} (hj : j < bs.length) :
    (s.putFrame bs).txByte j = bs[j] := by
  simp [State.txByte, State.byteAt_putFrame, hj]

/-- A built frame reads back in its two parts. -/
theorem State.readBytes_putFrame_append (s : State) (xs ys : List Byte) :
    (s.putFrame (xs ++ ys)).readBytes Config.txBase xs.length = xs ∧
      (s.putFrame (xs ++ ys)).readBytes (Config.txBase + xs.length) ys.length = ys := by
  have hwhole : (s.putFrame (xs ++ ys)).readBytes Config.txBase (xs ++ ys).length = xs ++ ys :=
    (State.readBytes_congr (s.writeBytes Config.txBase (xs ++ ys)) (s.putFrame _) _ _ fun _ _ => rfl).trans
      (State.readBytes_writeBytes ..)
  rw [List.length_append, State.readBytes_add] at hwhole
  exact List.append_inj hwhole (State.length_readBytes _ _ _)

/-- A build completed changes no register but TXLEN. -/
theorem finish_putFrame_eq (s : State) (bs : List Byte) (w : Word) :
    (s.putFrame bs).finish .none true w = { s with
      engine := .idle, done := true, err := .none, res := true, result := w, txlen := clampLen bs.length
      mem := (s.putFrame bs).mem } := rfl

/-! ### The trailer -/

/-- RESULT of the Modbus-style operations: the sum modulo 256, or the CRC. -/
theorem toNat_trailerValue (m : Bool) (bs : List Byte) :
    (trailerValue m bs).toNat = if m = true then (crc16 bs).toNat else byteSum bs % 256 := by
  cases m
  · exact toNat_setWidth_add8 bs
  · exact BitVec.toNat_setWidth_of_le (b := crc16 bs) (by decide)

/-- The bytes from `a` on are the trailer of `bs`: its sum, or its CRC low byte first. -/
theorem State.readBytes_eq_trailerBytes_iff (s : State) (a : Nat) (m : Bool) (bs : List Byte) :
    s.readBytes a (trailerLen m) = trailerBytes m bs ↔
      if m = true then (s.byteAt a).toNat + 256 * (s.byteAt (a + 1)).toNat = (crc16 bs).toNat
      else (s.byteAt a).toNat = byteSum bs % 256 := by
  cases m
  · change [s.byteAt a] = [add8 bs] ↔ (s.byteAt a).toNat = byteSum bs % 256
    rw [List.singleton_inj, ← BitVec.toNat_inj, toNat_add8]
  · exact eq_crcTrailer_iff_toNat _ _ _

end Sys2Proof.Machine
end

section
/-! PROOF. MB_BUILD and MB_PARSE (42_frame_modbus.md R130-R136), one equation per outcome, and the outcome of VB_PARSE on a
sequence that is too short (43_frame_vendorb.md R156). -/

namespace Sys2Proof.Machine

/-! ### The request -/

/-- The request frame with its trailer (R130). -/
def mbRequest (s : State) : List Byte :=
  mbRequestHead s ++ trailerBytes s.mbck (mbRequestHead s)

theorem exec_mbBuild (s : State) :
    exec .mbBuild s = .next ((s.putFrame (mbRequest s)).finish .none true (trailerValue s.mbck (mbRequestHead s))) := rfl

theorem length_mbRequest (s : State) : (mbRequest s).length = 6 + trailerLen s.mbck := by
  rw [mbRequest, List.length_append, length_trailerBytes]
  rfl

theorem txlen_putFrame_mbRequest (s : State) : (s.putFrame (mbRequest s)).txlen.val = 6 + trailerLen s.mbck := by
  have hfits : 6 + trailerLen s.mbck ≤ 512 := by cases s.mbck <;> decide
  rw [State.putFrame_txlen, length_mbRequest]
  exact Nat.min_eq_left hfits

theorem readBytes_putFrame_mbRequest (s : State) :
    (s.putFrame (mbRequest s)).readBytes Config.txBase 6 = mbRequestHead s ∧
      (s.putFrame (mbRequest s)).readBytes (Config.txBase + 6) (trailerLen s.mbck) =
        trailerBytes s.mbck (mbRequestHead s) := by
  rw [← length_trailerBytes s.mbck (mbRequestHead s)]
  exact s.readBytes_putFrame_append (mbRequestHead s) _

/-- Settles O19: the head's bytes are the registers', big-endian; the trailer follows them in either form. -/
theorem mbBuildWritesTheRequest : Obligations.MbBuildWritesTheRequest := by
  unfold Obligations.MbBuildWritesTheRequest
  intro s
  have hlen := length_mbRequest s
  have htxlen := txlen_putFrame_mbRequest s
  have hbyte (j : Nat) (hj : j < (mbRequest s).length) := s.txByte_putFrame (mbRequest s) hj
  obtain ⟨hhead, htrailer⟩ := readBytes_putFrame_mbRequest s
  rw [State.readBytes_eq_trailerBytes_iff] at htrailer
  refine ⟨_, exec_mbBuild s, finish_putFrame_eq s _ _, hbyte 0 (by omega), hbyte 1 (by omega), ?start, ?count,
    fun hm => ?sum, fun hm => ?crc, fun a ha => ?frame⟩
  case start => exact (congrArg₂ be16 (hbyte 2 (by omega)) (hbyte 3 (by omega))).trans (be16_extractLsb' s.mbStart)
  case count => exact (congrArg₂ be16 (hbyte 4 (by omega)) (hbyte 5 (by omega))).trans (be16_extractLsb' s.mbCount)
  case sum | crc =>
    rw [State.readBytes_finish, hhead, State.finish_result, toNat_trailerValue]
    simp only [hm] at htxlen htrailer ⊢
    exact ⟨htxlen, rfl, htrailer⟩
  case frame =>
    rw [State.byteAt_finish, State.byteAt_putFrame, dif_neg]
    rwa [State.finish_txlen, htxlen, ← hlen] at ha

/-! ### The response -/

/-- N of a received response: the byte count it declares (R131). -/
def State.mbByteCount (s : State) : Nat :=
  (s.rxByte 2).toNat

/-- The bytes of a received response before its trailer. -/
def State.mbBody (s : State) : List Byte :=
  s.readBytes Config.rxBase (3 + s.mbByteCount)

/-- FL of a received response: the frame length it declares (R131). -/
def State.mbFrameLen (s : State) : Nat :=
  3 + s.mbByteCount + trailerLen s.mbck

/-- The received response carries the trailer of its body. -/
def State.MbTrailerValid (s : State) : Prop :=
  s.readBytes (Config.rxBase + (3 + s.mbByteCount)) (trailerLen s.mbck) = trailerBytes s.mbck s.mbBody

theorem State.mbTrailerValid_iff (s : State) : s.MbTrailerValid ↔
    if s.mbck = true then
      (s.rxByte (3 + s.mbByteCount)).toNat + 256 * (s.rxByte (4 + s.mbByteCount)).toNat = (crc16 s.mbBody).toNat
    else (s.rxByte (3 + s.mbByteCount)).toNat = byteSum s.mbBody % 256 := by
  rw [Nat.add_right_comm 3 1]
  exact s.readBytes_eq_trailerBytes_iff _ _ _

theorem State.three_lt_mbFrameLen (s : State) : 3 < s.mbFrameLen := by
  unfold State.mbFrameLen trailerLen
  split <;> omega

/-- R131, R136: a sequence shorter than the frame it declares. -/
theorem exec_mbParse_of_short {s : State} (h : s.rxlen.val < s.mbFrameLen) :
    exec .mbParse s = .next (s.failParse (if s.rxlen.val = 0 then .noResponse else .incomplete) 0#32) := by
  change execMbParse s = _
  unfold execMbParse
  dsimp only
  split
  · rfl
  split
  · rfl
  · exact if_pos h

/-- R131: a whole frame is judged by its trailer. -/
theorem execMbParse_of_whole {s : State} (h : s.mbFrameLen ≤ s.rxlen.val) : execMbParse s =
    if s.readBytes (Config.rxBase + (3 + s.mbByteCount)) (trailerLen s.mbck) == trailerBytes s.mbck s.mbBody then
      .next ((s.setParse (mbParseRegs s s.mbByteCount s.mbFrameLen) .modbus).finish .none true
        (trailerValue s.mbck s.mbBody))
    else .next (s.failParse .checksumMismatch (trailerValue s.mbck s.mbBody)) := by
  have hthree := s.three_lt_mbFrameLen
  have hwhole : ¬ s.rxlen.val < 3 + (s.rxByte 2).toNat + trailerLen s.mbck := not_lt.2 h
  unfold execMbParse
  dsimp only
  rw [if_neg (by omega), if_neg (by omega), if_neg hwhole, Nat.add_sub_cancel]
  rfl

theorem exec_mbParse_of_valid {s : State} (h : s.mbFrameLen ≤ s.rxlen.val) (hv : s.MbTrailerValid) : exec .mbParse s =
    .next ((s.setParse (mbParseRegs s s.mbByteCount s.mbFrameLen) .modbus).finish .none true
      (trailerValue s.mbck s.mbBody)) :=
  (execMbParse_of_whole h).trans (if_pos (beq_iff_eq.2 hv))

theorem exec_mbParse_of_mismatch {s : State} (h : s.mbFrameLen ≤ s.rxlen.val) (hv : ¬ s.MbTrailerValid) :
    exec .mbParse s = .next (s.failParse .checksumMismatch (trailerValue s.mbck s.mbBody)) :=
  (execMbParse_of_whole h).trans (if_neg (mt beq_iff_eq.1 hv))

theorem toNat_ofNat_of_le_rxlen (s : State) {k : Nat} (h : k ≤ s.rxlen.val) : (BitVec.ofNat 10 k).toNat = k := by
  have := s.rxlen.isLt
  rw [BitVec.toNat_ofNat]
  omega

/-- Settles O20: no byte, a sequence too short, a frame with its trailer, or one with another. -/
theorem mbParseOutcome : Obligations.MbParseOutcome := by
  unfold Obligations.MbParseOutcome
  intro s
  obtain hshort | hwhole := lt_or_ge s.rxlen.val s.mbFrameLen
  · refine ⟨_, exec_mbParse_of_short hshort, rfl, ?_⟩
    dsimp only
    split
    · exact ⟨rfl, rfl, rfl, rfl, rfl⟩
    · rw [if_pos (.inr hshort)]
      exact ⟨rfl, rfl, rfl, rfl, rfl⟩
  · have hthree := s.three_lt_mbFrameLen
    have hnonempty : s.rxlen.val ≠ 0 := by omega
    have hlong : ¬ (s.rxlen.val < 3 ∨ s.rxlen.val < s.mbFrameLen) := by omega
    have hvalid := s.mbTrailerValid_iff
    have hresult := toNat_trailerValue s.mbck s.mbBody
    by_cases hv : s.MbTrailerValid
    · have haddr : ((s.rxByte 0).setWidth 16).toNat = (s.rxByte 0).toNat := BitVec.toNat_setWidth_of_le (by decide)
      have hcount : (BitVec.ofNat 10 s.mbByteCount).toNat = s.mbByteCount :=
        toNat_ofNat_of_le_rxlen s (by unfold State.mbFrameLen at hwhole; omega)
      refine ⟨_, exec_mbParse_of_valid hwhole hv, rfl, ?_⟩
      exact (if_neg hnonempty).mpr <| (if_neg hlong).mpr <| (if_pos (hvalid.1 hv)).mpr
        ⟨rfl, rfl, hresult, rfl, haddr, rfl, rfl, hcount, rfl, hcount, toNat_ofNat_of_le_rxlen s hwhole⟩
    · refine ⟨_, exec_mbParse_of_mismatch hwhole hv, rfl, ?_⟩
      exact (if_neg hnonempty).mpr <| (if_neg hlong).mpr <| (if_neg (mt hvalid.2 hv)).mpr
        ⟨rfl, rfl, hresult, rfl, rfl⟩

/-! ### Short sequences -/

/-- R156: a Vendor-B sequence shorter than its least length. -/
theorem exec_vbParse_of_short {c : Byte} {s : State} (h : s.rxlen.val < s.vbBound c) :
    exec (.vbParse c) s = .next (s.failParse (if s.rxlen.val = 0 then .noResponse else .tooShort) 0#32) := by
  change execVbParse c s = _
  unfold execVbParse
  dsimp only
  split <;> rfl

/-- Settles O21: both parses answer a short sequence with a length error. -/
theorem shortFramesNeverParse : Obligations.ShortFramesNeverParse := by
  unfold Obligations.ShortFramesNeverParse
  exact ⟨fun s h => ⟨_, exec_mbParse_of_short h, rfl, ite_eq_or_eq ..⟩,
    fun s c h => ⟨_, exec_vbParse_of_short h, rfl, ite_eq_or_eq ..⟩⟩

/-! ### The source's frame -/

/-- The first five bytes of the source's frame (R135). -/
def sourceBody : List Byte :=
  [0xFF#8, 0x03#8, 0x02#8, 0x00#8, 0x02#8]

theorem add8_sourceBody : add8 sourceBody = 0x06#8 := by decide

theorem crc16_sourceBody : crc16 sourceBody = 0x5110#16 := by decide +kernel

/-- Settles O22: the bytes after the body are its CRC, low byte first, and the first of them is not its sum. -/
theorem sourceFrameParsesOnlyAsCrc16 : Obligations.SourceFrameParsesOnlyAsCrc16 := by
  unfold Obligations.SourceFrameParsesOnlyAsCrc16
  intro s hlen hframe
  have hbyte {j : Nat} (hj : j < 7) := State.rxByte_eq_getElem hframe hj
  have hcount : s.mbByteCount = 2 := congrArg BitVec.toNat (hbyte (j := 2) (by decide))
  have hbody : s.mbBody = sourceBody := by
    rw [State.mbBody, hcount]
    exact State.readBytes_eq_take hframe (by decide)
  have hfl : s.mbFrameLen = 5 + trailerLen s.mbck := by rw [State.mbFrameLen, hcount]
  have hwhole : s.mbFrameLen ≤ s.rxlen.val := by
    rw [hfl, hlen]
    cases s.mbck <;> decide
  have hvalid := s.mbTrailerValid_iff
  rw [hcount, hbody, hbyte (j := 5) (by decide), hbyte (j := 6) (by decide), ← toNat_add8] at hvalid
  refine ⟨fun hm => ?_, fun hm => ?_⟩
  · rw [hm, add8_sourceBody] at hvalid
    refine ⟨_, exec_mbParse_of_mismatch hwhole (mt hvalid.1 (by decide)), rfl, ?_, rfl⟩
    rw [State.failParse_result, hbody, hm]
    rfl
  · rw [hm, crc16_sourceBody] at hvalid
    refine ⟨_, exec_mbParse_of_valid hwhole (hvalid.2 (by decide)), rfl, ?_, rfl, ?_⟩
    · rw [State.finish_result, hbody, hm, trailerValue, if_pos rfl, crc16_sourceBody]
      rfl
    · rw [State.finish_parse, State.setParse_parse, mbParseRegs, hbyte (j := 0) (by decide), hbyte (j := 1) (by decide),
        hcount, hfl, hm]
      rfl

end Sys2Proof.Machine
end

section
/-! PROOF. VB_BUILD, VB_MINLEN and VB_PARSE (43_frame_vendorb.md R150-R157): the lookup in the command table, the request
read back from TXB, and the parse of a frame that is long enough. -/

namespace Sys2Proof.Machine

/-! ### The command table -/

theorem valid_and_code_beq_iff (e : CmdEntry) (c : Byte) : (e.valid && e.code == c) = true ↔ e.valid = true ∧ e.code = c := by
  rw [Bool.and_eq_true, beq_iff_eq]

/-- R152: of the valid entries that hold the code, the one of least index is hit. -/
theorem State.cmdHit_eq_some {s : State} {c : Byte} {j : Fin 16} (hj : s.cmdt[j].valid = true ∧ s.cmdt[j].code = c)
    (hleast : ∀ i : Fin 16, i < j → ¬ (s.cmdt[i].valid = true ∧ s.cmdt[i].code = c)) : s.cmdHit c = some s.cmdt[j] := by
  refine List.find?_eq_some_iff_getElem.2 ⟨(valid_and_code_beq_iff _ c).2 hj, j.val, by simp, rfl, fun i hij => ?_⟩
  rw [Bool.not_eq_true', ← Bool.not_eq_true, valid_and_code_beq_iff]
  exact hleast ⟨i, hij.trans j.isLt⟩ hij

theorem State.cmdHit_eq_none {s : State} {c : Byte} (h : ∀ j : Fin 16, ¬ (s.cmdt[j].valid = true ∧ s.cmdt[j].code = c)) :
    s.cmdHit c = none := by
  refine List.find?_eq_none.2 fun e he => ?_
  obtain ⟨i, hi, rfl⟩ := Vector.getElem_of_mem (Vector.mem_toList_iff.1 he)
  rw [valid_and_code_beq_iff]
  exact h ⟨i, hi⟩

theorem State.minLen_of_hit {s : State} {c : Byte} {e : CmdEntry} (h : s.cmdHit c = some e) : s.minLen c = e.minlen.toNat := by
  rw [State.minLen, h]

theorem State.minLen_of_miss {s : State} {c : Byte} (h : s.cmdHit c = none) : s.minLen c = 1 := by
  rw [State.minLen, h]

theorem State.filler0_of_hit {s : State} {c : Byte} {e : CmdEntry} (h : s.cmdHit c = some e) : s.filler0 c = e.f0 := by
  rw [State.filler0, h]

theorem State.filler0_of_miss {s : State} {c : Byte} (h : s.cmdHit c = none) : s.filler0 c = 0#8 := by
  rw [State.filler0, h]

theorem exec_vbMinlen (c : Byte) (s : State) :
    exec (.vbMinlen c) s = .next (s.finish .none true (BitVec.ofNat 32 (s.minLen c))) := rfl

/-- Settles O23: the lookup hits the entry of least index, or none. -/
theorem vbMinlenIsTheTableLookup : Obligations.VbMinlenIsTheTableLookup := by
  unfold Obligations.VbMinlenIsTheTableLookup
  refine fun s c => ⟨_, exec_vbMinlen c s, rfl, fun j hvalid hcode hleast => ?hit, fun hnone => ?miss⟩
  case hit =>
    have hhit := State.cmdHit_eq_some ⟨hvalid, hcode⟩ hleast
    have hmin := State.minLen_of_hit hhit
    have hlt := s.cmdt[j].minlen.isLt
    refine ⟨?_, hmin, State.filler0_of_hit hhit⟩
    rw [State.finish_result, hmin, BitVec.toNat_ofNat]
    omega
  case miss =>
    have hmiss := State.cmdHit_eq_none hnone
    have hmin := State.minLen_of_miss hmiss
    exact ⟨congrArg (BitVec.ofNat 32) hmin, hmin, State.filler0_of_miss hmiss⟩

/-! ### The request -/

/-- A register sent low byte first is the little-endian value of its two bytes. -/
theorem leValue_extractLsb' (w : Half) : leValue [w.extractLsb' 0 8, w.extractLsb' 8 8] = w.toNat :=
  (eq_crcTrailer_iff_toNat _ _ w).1 rfl

/-- The request frame with its checksum (R150). -/
def vbRequest (s : State) (c : Byte) : List Byte :=
  vbRequestHead s c ++ [add8 (vbRequestHead s c)]

theorem exec_vbBuild (c : Byte) (s : State) : exec (.vbBuild c) s =
    .next ((s.putFrame (vbRequest s c)).finish .none true ((add8 (vbRequestHead s c)).setWidth 32)) := rfl

theorem length_vbRequest (s : State) (c : Byte) : (vbRequest s c).length = 9 := rfl

/-- Settles O24: each byte of the frame reads back; RESULT is the sum of the first eight and the ninth byte holds it. -/
theorem vbBuildWritesTheRequest : Obligations.VbBuildWritesTheRequest := by
  unfold Obligations.VbBuildWritesTheRequest
  intro c s
  have hlen := length_vbRequest s c
  have hbyte (j : Nat) (hj : j < 9) := s.txByte_putFrame (vbRequest s c) hj
  have hhead : (s.putFrame (vbRequest s c)).readBytes Config.txBase 8 = vbRequestHead s c :=
    (s.readBytes_putFrame_append (vbRequestHead s c) _).1
  refine ⟨_, exec_vbBuild c s, finish_putFrame_eq s _ _, rfl, ?dest, ?src, hbyte 4 (by decide), hbyte 5 (by decide),
    hbyte 6 (by decide), hbyte 7 (by decide), ?sum, ?last, fun a ha => ?frame⟩
  case dest =>
    exact (congrArg₂ (fun lo hi => leValue [lo, hi]) (hbyte 0 (by decide)) (hbyte 1 (by decide))).trans
      (leValue_extractLsb' s.vbDest)
  case src =>
    exact (congrArg₂ (fun lo hi => leValue [lo, hi]) (hbyte 2 (by decide)) (hbyte 3 (by decide))).trans
      (leValue_extractLsb' s.vbSrc)
  case sum =>
    rw [State.readBytes_finish, hhead]
    exact toNat_setWidth_add8 _
  case last =>
    rw [State.finish_result, BitVec.toNat_setWidth_of_le (by decide)]
    exact congrArg BitVec.toNat (hbyte 8 (by decide))
  case frame => rw [State.byteAt_finish, State.byteAt_putFrame, dif_neg (by rwa [hlen])]

/-! ### The response -/

/-- The bytes of a received response before its checksum, which is its last byte (R153). -/
def State.vbBody (s : State) : List Byte :=
  s.readBytes Config.rxBase (s.rxlen.val - 1)

/-- R153: a frame that is long enough is judged by its last byte. -/
theorem exec_vbParse_of_long {c : Byte} {s : State} (h : s.vbBound c ≤ s.rxlen.val) : exec (.vbParse c) s =
    if s.rxByte (s.rxlen.val - 1) = add8 s.vbBody then
      .next ((s.setParse (vbParseRegs s s.rxlen.val) .vendorB).finish .none true ((add8 s.vbBody).setWidth 32))
    else .next (s.failParse .checksumMismatch ((add8 s.vbBody).setWidth 32)) := by
  have hsix : 6 ≤ s.vbBound c := Nat.le_max_right _ _
  change execVbParse c s = _
  exact (if_neg (by omega)).trans (if_neg (by omega))

/-- Settles O25: no byte, a frame too short, a frame with its checksum as last byte, or one with another. -/
theorem vbParseOutcome : Obligations.VbParseOutcome := by
  unfold Obligations.VbParseOutcome
  intro c s
  obtain hshort | hlong := lt_or_ge s.rxlen.val (s.vbBound c)
  · refine ⟨_, exec_vbParse_of_short hshort, rfl, ?_⟩
    dsimp only
    split
    · exact ⟨rfl, rfl, rfl, rfl, rfl⟩
    · exact (if_pos hshort).mpr ⟨rfl, rfl, rfl, rfl, rfl⟩
  · have hsix : 6 ≤ s.rxlen.val := (Nat.le_max_right _ _).trans hlong
    have hnonempty : s.rxlen.val ≠ 0 := by omega
    have hlast : s.rxByte (s.rxlen.val - 1) = add8 s.vbBody ↔
        (s.rxByte (s.rxlen.val - 1)).toNat = byteSum s.vbBody % 256 := by
      rw [← toNat_add8, BitVec.toNat_inj]
    have hresult := toNat_setWidth_add8 s.vbBody
    by_cases hsum : s.rxByte (s.rxlen.val - 1) = add8 s.vbBody
    · have hframe := vendorBLatched_setParse hsix hsum
      refine ⟨_, (exec_vbParse_of_long hlong).trans (if_pos hsum), rfl, ?_⟩
      exact (if_neg hnonempty).mpr <| (if_neg (not_lt.2 hlong)).mpr <| (if_pos (hlast.1 hsum)).mpr
        ⟨rfl, rfl, hresult, rfl, hframe.addr, hframe.src, hframe.func, rfl, hframe.len, hframe.bcnt, hframe.flen⟩
    · refine ⟨_, (exec_vbParse_of_long hlong).trans (if_neg hsum), rfl, ?_⟩
      exact (if_neg hnonempty).mpr <| (if_neg (not_lt.2 hlong)).mpr <| (if_neg (mt hlast.2 hsum)).mpr
        ⟨rfl, rfl, hresult, rfl, rfl⟩

end Sys2Proof.Machine
end

section
/-! PROOF. A decode with its payload latched (44_field_decoder.md R170-R176), once for both variants: the raw field of a
descriptor, and the descriptor loop told in the model's own terms instead of the loop's. -/

namespace Sys2Proof.Machine

/-! ### The field of a descriptor -/

/-- The field that a decode of either variant takes for descriptor `i` (R173, R174). -/
def fieldRaw (s : State) : Bool → Fin 32 → Except Reason Nat
  | false => mbRaw s
  | true => vbRaw s

/-- The value of that field where it lies in the payload. -/
def fieldValue (s : State) : Bool → Fin 32 → Nat
  | false => payloadWord s
  | true => payloadField s

theorem fieldRaw_bound (s : State) (vendorB : Bool) : ∀ i v, fieldRaw s vendorB i = .ok v → v < 2 ^ 24 := by
  cases vendorB
  · exact mbRaw_bound s
  · exact vbRaw_bound s

theorem fieldRaw_of_inPayload {s : State} {vendorB : Bool} {i : Fin 32} (h : FieldInPayload s vendorB i) :
    fieldRaw s vendorB i = .ok (fieldValue s vendorB i) := by
  cases vendorB with
  | false => rfl
  | true =>
    obtain ⟨hwidth, hrange⟩ := h rfl
    exact (if_neg hwidth).trans (if_neg (Nat.not_lt.2 hrange))

/-- R171: a field that is not in the payload has no width, or ends past the payload. -/
theorem vbRaw_of_not_inPayload {s : State} {i : Fin 32} (h : ¬ FieldInPayload s true i) :
    (vbRaw s i = .error .badWidth ∧ s.fdesc[i].width = 0#2) ∨
    (vbRaw s i = .error .outOfRange ∧ s.fdesc[i].width ≠ 0#2 ∧
      s.parse.len.toNat < s.fdesc[i].offset.toNat + s.fdesc[i].width.toNat) := by
  by_cases hwidth : s.fdesc[i].width = 0#2
  · exact .inl ⟨if_pos hwidth, hwidth⟩
  · have hrange : s.parse.len.toNat < s.fdesc[i].offset.toNat + s.fdesc[i].width.toNat :=
      Nat.lt_of_not_le fun hle => h fun _ => ⟨hwidth, hle⟩
    exact .inr ⟨(if_neg hwidth).trans (if_pos hrange), hwidth, hrange⟩

/-- A field that could not be taken is reported as R171 says. -/
theorem stopsFor_of_fieldRaw_error {s : State} {vendorB : Bool} {i : Fin 32} {r : Reason} (hactive : s.fdesc[i].active = true)
    (hscale : s.fdesc[i].scale ≠ 0#16) (h : fieldRaw s vendorB i = .error r) : StopsFor s vendorB i r := by
  have hout : ¬ FieldInPayload s vendorB i := fun hin => nomatch (fieldRaw_of_inPayload hin).symm.trans h
  cases vendorB with
  | false => cases h
  | true =>
    obtain ⟨he, hwidth⟩ | ⟨he, hwidth, hrange⟩ := vbRaw_of_not_inPayload hout <;> cases he.symm.trans h
    · exact ⟨rfl, hactive, hscale, hwidth⟩
    · exact ⟨rfl, hactive, hscale, hwidth, hrange⟩

theorem inPayload_iff_fieldRaw_ok {s : State} {vendorB : Bool} {i : Fin 32} :
    FieldInPayload s vendorB i ↔ ∃ v, fieldRaw s vendorB i = .ok v := by
  refine ⟨fun h => ⟨_, fieldRaw_of_inPayload h⟩, fun ⟨v, hv⟩ => ?_⟩
  by_contra hout
  cases vendorB with
  | false => exact hout nofun
  | true => obtain ⟨he, -⟩ | ⟨he, -⟩ := vbRaw_of_not_inPayload hout <;> cases he.symm.trans hv

/-! ### The descriptor loop -/

/-- R176: what lets a decode apply its first `n` descriptors. -/
structure Decodable (s : State) (vendorB : Bool) (n : Nat) : Prop where
  consistent : tableConsistent s.fdesc n
  inPayload : ∀ i : Fin 32, i.val < n → s.fdesc[i].active = true → FieldInPayload s vendorB i

theorem FieldFails.stopsFor {s : State} {vendorB : Bool} {i : Fin 32} {r : Reason}
    (h : FieldFails s.fdesc (fieldRaw s vendorB) i r) : StopsFor s vendorB i r := by
  cases h with
  | badScale ha hs => exact ⟨ha, hs⟩
  | raw r ha hs hr => exact stopsFor_of_fieldRaw_error ha hs hr
  | duplicate hp hk j hj hs he => exact ⟨hp.1, inPayload_iff_fieldRaw_ok.2 hp.2, hk, j, hj, hs, he⟩
  | noPrior hp hk h => exact ⟨hp.1, inPayload_iff_fieldRaw_ok.2 hp.2, hk, h⟩
  | mismatch hp hk j hj hs he hd => exact ⟨hp.1, inPayload_iff_fieldRaw_ok.2 hp.2, hk, j, hj, hs, he, hd⟩

theorem rawSum_congr {val val' : Fin 32 → Nat} {l : List (Fin 32)} (h : ∀ i ∈ l, val i = val' i) : rawSum val l = rawSum val' l := by
  induction l with
  | nil => rfl
  | cons i l ih => rw [rawSum, rawSum, h i List.mem_cons_self, ih fun j hj => h j (List.mem_cons_of_mem i hj)]

/-- The sums depend on the values of the active descriptors alone. -/
theorem Decoded.congr {t : Vector FDesc 32} {val val' : Fin 32 → Nat} {n : Nat} {w : DecodeWork} (hd : Decoded t val n w)
    (h : ∀ i : Fin 32, i.val < n → t[i].active = true → val i = val' i) : Decoded t val' n w where
  applied := hd.applied
  empty := hd.empty
  held := hd.held
  num k := by
    rw [hd.num k]
    refine rawSum_congr fun i hi => ?_
    obtain ⟨hn, ha, -⟩ := (mem_contributors t n k i).1 hi
    exact h i hn ha

/-- What the descriptor loop does, by whether its descriptors can all be applied. -/
theorem decodeFields_cases (s : State) (vendorB : Bool) {n : Nat} (hn : n ≤ 32) :
    (∃ w, decodeFields s.fdesc (fieldRaw s vendorB) (indicesBelow n) emptyWork = .ok w ∧
      Decoded s.fdesc (fieldValue s vendorB) n w ∧ Decodable s vendorB n) ∨
    (∃ r i, decodeFields s.fdesc (fieldRaw s vendorB) (indicesBelow n) emptyWork = .error (r, i) ∧ i.val < n ∧
      FirstStop s vendorB i r ∧ ¬ Decodable s vendorB n) := by
  obtain ⟨w, hw, hd, hc, htaken⟩ | ⟨r, i, hw, hi, hf, hc, htaken⟩ :=
    decodeFields_spec s.fdesc (fieldRaw s vendorB) (fieldRaw_bound s vendorB) n hn
  · have hin : ∀ i : Fin 32, i.val < n → s.fdesc[i].active = true → FieldInPayload s vendorB i := fun i hi ha =>
      inPayload_iff_fieldRaw_ok.2 (htaken i hi ha)
    refine .inl ⟨w, hw, hd.congr fun i hi ha => ?_, hc, hin⟩
    rw [rawValue, fieldRaw_of_inPayload (hin i hi ha)]
  · refine .inr ⟨r, i, hw, hi, ⟨hf.stopsFor, hc, fun j hj ha => inPayload_iff_fieldRaw_ok.2 (htaken j hj ha)⟩, fun h => ?_⟩
    exact hf.not_consistent hi h.consistent fun ha => inPayload_iff_fieldRaw_ok.1 (h.inPayload i hi ha)

/-! ### A whole decode -/

/-- A decode of the first `n` descriptors, from the fresh sample to its end. -/
def State.decodePayload (s : State) (vendorB : Bool) (n : Nat) (odd trunc : Bool) : State :=
  s.endDecode odd trunc (decodeFields s.fdesc (fieldRaw s vendorB) (indicesBelow n) emptyWork)

theorem exec_fdDecodeMb_of_pv {s : State} (h : s.pv = .modbus) : exec .fdDecodeMb s =
    .next (s.decodePayload false (min (s.parse.len.toNat / 2) 32) (decide (s.parse.len.toNat % 2 = 1))
      (decide (32 < s.parse.len.toNat / 2))) := by
  rw [State.decodePayload, ← indicesBelow_min]
  exact if_neg (not_not.2 h)

theorem exec_fdDecodeVb_of_pv {s : State} (h : s.pv = .vendorB) :
    exec .fdDecodeVb s = .next (s.decodePayload true 32 false false) :=
  if_neg (not_not.2 h)

theorem decodedTo_decodePayload {s : State} {vendorB : Bool} {n : Nat} (hn : n ≤ 32) (h : Decodable s vendorB n)
    (odd trunc : Bool) : DecodedTo s (s.decodePayload vendorB n odd trunc) n (fieldValue s vendorB) odd trunc := by
  obtain ⟨w, hw, hd, -⟩ | ⟨_, _, -, -, -, hnot⟩ := decodeFields_cases s vendorB hn
  · rw [State.decodePayload, hw]
    refine ⟨rfl, ?_, fun k => ⟨hd.empty k, hd.held k, hd.num k⟩⟩
    have happlied : w.applied < 2 ^ 32 := by
      have := (List.length_filter_le (fun i => s.fdesc[i].active) _).trans (length_indicesBelow_le n)
      rw [hd.applied]
      omega
    calc (BitVec.ofNat 32 w.applied).toNat = w.applied := by rw [BitVec.toNat_ofNat, Nat.mod_eq_of_lt happlied]
      _ = _ := hd.applied
  · exact absurd h hnot

theorem decodePayload_err_eq_none_iff (s : State) (vendorB : Bool) {n : Nat} (hn : n ≤ 32) (odd trunc : Bool) :
    (s.decodePayload vendorB n odd trunc).err = .none ↔ Decodable s vendorB n := by
  obtain ⟨w, hw, -, h⟩ | ⟨r, i, hw, -, -, h⟩ := decodeFields_cases s vendorB hn <;> rw [State.decodePayload, hw]
  · exact iff_of_true rfl h
  · exact iff_of_false nofun h

/-- What a decode that stopped leaves: everything but the completion, the empty slots and DEC_INFO as before, and DEC_INFO
naming the first stop. -/
theorem decodePayload_of_err {s t : State} {vendorB : Bool} {n : Nat} {odd trunc : Bool} (hn : n ≤ 32)
    (ht : s.decodePayload vendorB n odd trunc = t) (h : t.err ≠ .none) :
    t = { s with
      engine := .idle, done := true, err := .decodeInconsistency, res := false, result := 0#32, slots := emptyWork.slots
      decInfo := t.decInfo } ∧
    (∀ k : Fin 32, t.slots[k] = Slot.empty) ∧ t.decInfo.odd = odd ∧ t.decInfo.trunc = trunc ∧
    ∃ i : Fin 32, i.val < n ∧ t.decInfo.index.toNat = i.val ∧ FirstStop s vendorB i t.decInfo.reason := by
  obtain ⟨w, hw, -⟩ | ⟨r, i, hw, hi, hstop, -⟩ := decodeFields_cases s vendorB hn <;>
    rw [State.decodePayload, hw] at ht <;> subst ht
  · exact absurd rfl h
  · have hindex : (BitVec.ofNat 5 i.val).toNat = i.val := by rw [BitVec.toNat_ofNat, Nat.mod_eq_of_lt i.isLt]
    exact ⟨rfl, emptyWork_slots, rfl, rfl, i, hi, hindex, hstop⟩

end Sys2Proof.Machine
end

section
/-! PROOF. FD_DECODE_MB and FD_DECODE_VB (44_field_decoder.md R170-R177). -/

namespace Sys2Proof.Machine

theorem decodable_modbus_iff {s : State} {n : Nat} : Decodable s false n ↔ tableConsistent s.fdesc n :=
  ⟨Decodable.consistent, fun h => ⟨h, fun _ _ _ => nofun⟩⟩

theorem decodable_vendorB_iff {s : State} :
    Decodable s true 32 ↔ tableConsistent s.fdesc 32 ∧ fieldsWithin s.fdesc s.parse.len.toNat :=
  ⟨fun h => ⟨h.consistent, fun i ha => h.inPayload i i.isLt ha rfl⟩, fun ⟨hc, hfields⟩ => ⟨hc, fun i _ ha _ => hfields i ha⟩⟩

/-- Settles O28: the loop over the words present applies every descriptor. -/
theorem fdDecodeMbOfConsistentTable : Obligations.FdDecodeMbOfConsistentTable := by
  unfold Obligations.FdDecodeMbOfConsistentTable
  intro s hpv hc
  exact ⟨_, exec_fdDecodeMb_of_pv hpv, decodedTo_decodePayload (Nat.min_le_right _ _) (decodable_modbus_iff.2 hc) _ _⟩

/-- Settles O29: the loop over the whole table applies every descriptor. -/
theorem fdDecodeVbOfConsistentTable : Obligations.FdDecodeVbOfConsistentTable := by
  unfold Obligations.FdDecodeVbOfConsistentTable
  intro s hpv hc hfields
  exact ⟨_, exec_fdDecodeVb_of_pv hpv, decodedTo_decodePayload le_rfl (decodable_vendorB_iff.2 ⟨hc, hfields⟩) _ _⟩

/-- Settles O30: the loop stopped at the first descriptor it could not apply, below the words present. -/
theorem inconsistentDecodeReportsAndClears : Obligations.InconsistentDecodeReportsAndClears := by
  unfold Obligations.InconsistentDecodeReportsAndClears
  intro s t
  constructor
  · intro hpv ht herr
    obtain ⟨hframe, hslots, hodd, htrunc, i, hi, hindex, hstop⟩ := decodePayload_of_err (Nat.min_le_right _ _)
      (Host.Outcome.next.inj ((exec_fdDecodeMb_of_pv hpv).symm.trans ht)) herr
    exact ⟨hframe, hslots, hodd, htrunc, i, hi.trans_le (Nat.min_le_left _ _), hindex, hstop⟩
  · intro hpv ht herr
    obtain ⟨hframe, hslots, hodd, htrunc, i, -, hindex, hstop⟩ := decodePayload_of_err le_rfl
      (Host.Outcome.next.inj ((exec_fdDecodeVb_of_pv hpv).symm.trans ht)) herr
    exact ⟨hframe, hslots, hodd, htrunc, i, hindex, hstop⟩

/-- Settles O31: the loop ends without a stop exactly when every descriptor can be applied. -/
theorem decodeSucceedsIffTableConsistent : Obligations.DecodeSucceedsIffTableConsistent := by
  unfold Obligations.DecodeSucceedsIffTableConsistent
  intro s t
  constructor
  · intro hpv ht
    cases (exec_fdDecodeMb_of_pv hpv).symm.trans ht
    exact (decodePayload_err_eq_none_iff s false (Nat.min_le_right _ _) _ _).trans decodable_modbus_iff
  · intro hpv ht
    cases (exec_fdDecodeVb_of_pv hpv).symm.trans ht
    exact (decodePayload_err_eq_none_iff s true le_rfl _ _).trans decodable_vendorB_iff

/-! ### SIMPLE then CONT -/

theorem forall_below_two {p : Fin 32 → Prop} (zero : p 0) (one : p 1) (i : Fin 32) (hi : i.val < 2) : p i := by
  obtain rfl | rfl : i = 0 ∨ i = 1 := by omega
  · exact zero
  · exact one

section SimpleThenCont
variable {t : Vector FDesc 32} (simple : t[(0 : Fin 32)].kind = .simple) (cont : t[(1 : Fin 32)].kind = .cont)
include simple cont

theorem tableConsistent_simple_cont (slot : t[(1 : Fin 32)].slot = t[(0 : Fin 32)].slot)
    (scale : t[(1 : Fin 32)].scale = t[(0 : Fin 32)].scale) (nonzero : t[(0 : Fin 32)].scale ≠ 0#16) : tableConsistent t 2 where
  scales := forall_below_two (fun _ => nonzero) (fun _ => scale ▸ nonzero)
  simplesDiffer i j hij hj _ hsj := by
    obtain rfl : j = 1 := by omega
    cases cont.symm.trans hsj
  contsFollow := forall_below_two (fun h => nomatch simple.symm.trans h)
    (fun _ => ⟨0, by decide, simple, slot.symm, scale.symm⟩)

theorem active_simple_cont : ∀ i : Fin 32, i.val < 2 → t[i].active = true :=
  forall_below_two (active_of_simple simple) (active_of_cont cont)

theorem filter_active_simple_cont : (indicesBelow 2).filter (fun i => t[i].active) = [0, 1] :=
  List.filter_eq_self.2 fun i hi => active_simple_cont simple cont i ((mem_indicesBelow 2 i).1 hi)

theorem contributors_simple_cont (slot : t[(1 : Fin 32)].slot = t[(0 : Fin 32)].slot) :
    contributors t 2 t[(0 : Fin 32)].slot = [0, 1] := by
  have hslot : ∀ i : Fin 32, i.val < 2 → t[i].slot = t[(0 : Fin 32)].slot := forall_below_two rfl slot
  refine List.filter_eq_self.2 fun i hi => ?_
  have hi := (mem_indicesBelow 2 i).1 hi
  rw [active_simple_cont simple cont i hi, hslot i hi, Bool.true_and, beq_self_eq_true]

end SimpleThenCont

/-- Settles O32: the two descriptors are consistent and are what adds to the slot. -/
theorem simpleThenContAddsTheWords : Obligations.SimpleThenContAddsTheWords := by
  unfold Obligations.SimpleThenContAddsTheWords
  intro s hpv hlen simple cont slot scale nonzero
  have hwords : min (s.parse.len.toNat / 2) 32 = 2 := by rw [hlen]; rfl
  have hcontr := contributors_simple_cont simple cont slot
  have hexec := exec_fdDecodeMb_of_pv hpv
  rw [hwords] at hexec
  obtain ⟨hframe, hresult, hslots⟩ := decodedTo_decodePayload (by decide)
    (decodable_modbus_iff.2 (tableConsistent_simple_cont simple cont slot scale nonzero)) _ _
  obtain ⟨-, hheld, hnum⟩ := hslots s.fdesc[(0 : Fin 32)].slot
  obtain ⟨hvalid, hden⟩ := hheld 0 (hcontr ▸ List.mem_cons_self)
  refine ⟨_, hexec, congrArg State.err hframe, BitVec.eq_of_toNat_eq ?_, hvalid, ?_, hden⟩
  · rw [hresult, filter_active_simple_cont simple cont]
    rfl
  · rw [hnum, hcontr]
    exact congrArg (payloadWord s 0 + ·) (Nat.add_zero (payloadWord s 1))

/-! ### What a decode reads of the state before -/

/-- Settles O27: the PV check comes first. -/
theorem decodeWithoutPayloadIsNoPayload : Obligations.DecodeWithoutPayloadIsNoPayload := by
  unfold Obligations.DecodeWithoutPayloadIsNoPayload
  exact fun s => ⟨fun h => if_pos h, fun h => if_pos h⟩

/-- `s` with other slots and result registers. -/
def State.withOutcome (s : State) (slots : Vector Slot 32) (d : DecInfo) (e : Err) (r : Bool) (x : Word) : State :=
  { s with slots := slots, decInfo := d, err := e, res := r, result := x }

section WithOutcome
variable (s : State) (slots : Vector Slot 32) (d : DecInfo) (e : Err) (r : Bool) (x : Word)

@[simp] theorem State.readBytes_withOutcome (a n : Nat) : (s.withOutcome slots d e r x).readBytes a n = s.readBytes a n :=
  State.readBytes_congr s _ a n fun _ _ => rfl

theorem fieldRaw_withOutcome (vendorB : Bool) : fieldRaw (s.withOutcome slots d e r x) vendorB = fieldRaw s vendorB := by
  cases vendorB with
  | false => rfl
  | true =>
    funext i
    simp only [fieldRaw, vbRaw, State.readBytes_withOutcome]
    rfl

theorem endDecode_withOutcome (odd trunc : Bool) (w : Except (Reason × Fin 32) DecodeWork) :
    (s.withOutcome slots d e r x).endDecode odd trunc w = s.endDecode odd trunc w := by
  cases w <;> rfl

theorem decodePayload_withOutcome (vendorB : Bool) (n : Nat) (odd trunc : Bool) :
    (s.withOutcome slots d e r x).decodePayload vendorB n odd trunc = s.decodePayload vendorB n odd trunc := by
  rw [State.decodePayload, endDecode_withOutcome, fieldRaw_withOutcome]
  rfl

end WithOutcome

/-- Settles O33: the loop reads the payload and the table, and the end of a decode writes over all the rest. -/
theorem decodeStartsFromAFreshSample : Obligations.DecodeStartsFromAFreshSample := by
  unfold Obligations.DecodeStartsFromAFreshSample
  intro s slots d e r x
  have hdecode := decodePayload_withOutcome s slots d e r x
  constructor <;> intro hpv
  · rw [exec_fdDecodeMb_of_pv hpv, ← hdecode]
    exact exec_fdDecodeMb_of_pv hpv
  · rw [exec_fdDecodeVb_of_pv hpv, ← hdecode]
    exact exec_fdDecodeVb_of_pv hpv

end Sys2Proof.Machine
end

section
/-! PROOF. SC_CLASS_MB and SC_CLASS_VB (45_status_classifier.md R190-R195): the classifiers' answers case by case, and the
default masks as single bits. -/

namespace Sys2Proof.Machine

theorem exec_scClassMb (s : State) : exec .scClassMb s = .next (s.setClass (classifyMb s.scIn)) := rfl

theorem exec_scClassVb (s : State) : exec .scClassVb s = .next (s.setClass (classifyVb s.params s.scIn)) := rfl

/-- What a classification leaves unchanged is all but the completion's registers, RESULT and SC_CLASS. -/
theorem State.setClass_frame (s : State) (c : ClassCode) : s.setClass c =
    { s with engine := .idle, done := true, err := .none, res := true
             result := (s.setClass c).result, scClass := (s.setClass c).scClass } := rfl

/-! ### The exact-match table -/

@[simp] theorem classifyMb_zero : classifyMb 0#32 = .notRunning := rfl

@[simp] theorem classifyMb_one : classifyMb 1#32 = .inOperation := rfl

theorem classifyMb_of_two_le {x : Word} (h : 2 ≤ x.toNat) : classifyMb x = .unknown := by
  have hzero : x ≠ 0#32 := by bv_omega
  have hone : x ≠ 1#32 := by bv_omega
  rw [classifyMb, if_neg hzero, if_neg hone]

/-- Settles O34: the three rows of the table. -/
theorem scClassMbIsTheExactMatch : Obligations.ScClassMbIsTheExactMatch := by
  unfold Obligations.ScClassMbIsTheExactMatch
  refine fun s => ⟨_, exec_scClassMb s, s.setClass_frame _, rfl, fun h => ?zero, fun h => ?one, fun h => ?other⟩
  case zero => simp [h, classCode]
  case one => simp [h, classCode]
  case other => simp [classifyMb_of_two_le h, classCode]

/-! ### The precedence list -/

@[simp] theorem classifyVb_zero (p : Params) : classifyVb p 0#32 = .inOperation := rfl

/-- R191: of the masks that meet `x`, the one of least index wins. -/
theorem classifyVb_of_first {p : Params} {x : Word} {k : Fin 12} (hk : x &&& p.vbMask k ≠ 0#32)
    (hleast : ∀ j : Fin 12, j < k → x &&& p.vbMask j = 0#32) : classifyVb p x = .cond k := by
  have hx : x ≠ 0#32 := by
    rintro rfl
    exact hk BitVec.zero_and
  have hfind : (List.finRange 12).find? (fun k => (x &&& p.vbMask k) != 0#32) = some k := by
    refine List.find?_eq_some_iff_getElem.2 ⟨bne_iff_ne.2 hk, k.val, by simp, by simp, fun j hj => ?_⟩
    simpa using hleast ⟨j, hj.trans k.isLt⟩ hj
  rw [classifyVb, if_neg hx, hfind]

theorem classifyVb_of_no_match {p : Params} {x : Word} (hx : x ≠ 0#32) (h : ∀ k : Fin 12, x &&& p.vbMask k = 0#32) :
    classifyVb p x = .unknown := by
  have hfind : (List.finRange 12).find? (fun k => (x &&& p.vbMask k) != 0#32) = none :=
    List.find?_eq_none.2 fun k _ => by simp [h k]
  rw [classifyVb, if_neg hx, hfind]

/-- R193: mask `k` of the defaults is bit `k`. -/
theorem vbMask_default : ∀ k : Fin 12, Params.default.vbMask k = BitVec.twoPow 32 k := by decide

theorem and_vbMask_default_eq_zero_iff (x : Word) (k : Fin 12) :
    x &&& Params.default.vbMask k = 0#32 ↔ x.getLsbD k = false := by
  have hbit : ∀ k : Fin 12, BitVec.twoPow 32 k ≠ 0#32 := by decide
  rw [vbMask_default, BitVec.and_twoPow]
  cases x.getLsbD k with
  | false => simp
  | true => simp [hbit k]

theorem classCode_cond_toNat : ∀ k : Fin 12, ((classCode (.cond k)).setWidth 32 : Word).toNat = 0x10 + k.val := by decide

theorem setClass_result_of_first {s : State} {k : Fin 12} (hk : s.scIn &&& s.params.vbMask k ≠ 0#32)
    (hleast : ∀ j : Fin 12, j < k → s.scIn &&& s.params.vbMask j = 0#32) :
    (s.setClass (classifyVb s.params s.scIn)).result.toNat = 0x10 + k.val := by
  rw [State.setClass_result, classifyVb_of_first hk hleast, classCode_cond_toNat]

theorem setClass_result_of_no_match {s : State} (hx : s.scIn ≠ 0#32)
    (h : ∀ k : Fin 12, s.scIn &&& s.params.vbMask k = 0#32) :
    (s.setClass (classifyVb s.params s.scIn)).result = 0xFF#32 := by
  rw [State.setClass_result, classifyVb_of_no_match hx h]
  rfl

/-- Settles O35: the default masks' clauses are the general ones with each mask read as its bit. -/
theorem scClassVbFirstMatchWins : Obligations.ScClassVbFirstMatchWins := by
  unfold Obligations.ScClassVbFirstMatchWins
  refine fun s => ⟨_, exec_scClassVb s, s.setClass_frame _, rfl, fun h => ?zero,
    fun _ hk hleast => setClass_result_of_first hk hleast, setClass_result_of_no_match, fun hp => ?defaults⟩
  case zero => simp [h, classCode]
  case defaults =>
    have hbit : ∀ k : Fin 12, s.scIn &&& s.params.vbMask k = 0#32 ↔ s.scIn.getLsbD k = false :=
      fun k => hp ▸ and_vbMask_default_eq_zero_iff s.scIn k
    refine ⟨fun k hk hset hclear => ?_, fun hx hclear => setClass_result_of_no_match hx fun k => (hbit k).2 (hclear k k.isLt)⟩
    have hmeets : s.scIn &&& s.params.vbMask ⟨k, hk⟩ ≠ 0#32 := by simp [hbit, hset]
    exact setClass_result_of_first hmeets fun j hj => (hbit j).2 (hclear j hj)

/-! ### The source's example -/

/-- R7: the source fixes VBMASK[0]. -/
@[simp] theorem vbMask_zero (p : Params) : p.vbMask 0 = 0x001#32 := rfl

/-- Settles O36: bit 0 of SC_IN meets VBMASK[0], before which there is no mask. -/
theorem sourceBitmaskExample : Obligations.SourceBitmaskExample := by
  unfold Obligations.SourceBitmaskExample
  intro s h
  have hmeets : s.scIn &&& s.params.vbMask 0 ≠ 0#32 := by rw [h, vbMask_zero]; decide
  have hclass : classifyVb s.params s.scIn = .cond 0 := classifyVb_of_first hmeets fun j hj => absurd hj j.not_lt_zero
  exact ⟨_, exec_scClassVb s, hclass, congrArg (fun c => (classCode c).setWidth 32) hclass, rfl⟩

end Sys2Proof.Machine
end

section
/-! PROOF. NOP (46_control.md R200, R201). -/

namespace Sys2Proof.Machine

/-- R200: NOP is `finish(NONE, 1, 0)` on the state as it stands. -/
theorem exec_nop (s : State) : exec .nop s = .next (s.finish .none true 0#32) := rfl

/-- Settles O9: NOP is a completion and no more, and a completion writes these five registers. -/
theorem nopOnlyCompletes : Obligations.NopOnlyCompletes := by
  unfold Obligations.NopOnlyCompletes
  intro s
  rw [exec_nop, State.finish]

end Sys2Proof.Machine
end

section
/-! PROOF. Error reporting (60_exceptions.md): which operation reports which code, STATUS field by field, and the illegal OPC. -/

namespace Sys2Proof.Machine

/-! ### STATUS -/

theorem getLsbD_statusWord (s : State) {k : Nat} (hk : k < 32) :
    s.statusWord.getLsbD k =
      (decide (k = 0) && s.busy || decide (k = 1) && s.done || decide (k = 2) && s.ovr || decide (k = 3) && s.wbz ||
        decide (k = 4) && s.rxovf || decide (k = 5) && s.res || decide (k = 6) && retryOf s.err ||
        decide (8 ≤ k) && (errCode s.err).getLsbD (k - 8)) := by
  simp only [State.statusWord, BitVec.getLsbD_or, getLsbD_flagAt _ _ hk, getLsbD_placed _ _ hk]

theorem extractLsb'_eq_of_getLsbD {w : Word} {lo n : Nat} {v : BitVec n}
    (h : ∀ j < n, w.getLsbD (lo + j) = v.getLsbD j) : w.extractLsb' lo n = v :=
  BitVec.eq_of_getLsbD_eq fun j hj => by rw [BitVec.getLsbD_extractLsb', h j hj, decide_eq_true hj, Bool.true_and]

theorem statusWord_err (s : State) : s.statusWord.extractLsb' 8 4 = errCode s.err :=
  extractLsb'_eq_of_getLsbD fun j hj => by
    rw [getLsbD_statusWord s (by omega)]
    grind

theorem statusWord_reserved (s : State) : s.statusWord.extractLsb' 12 20 = 0#20 :=
  extractLsb'_eq_of_getLsbD fun j hj => by
    have hcode : (errCode s.err).getLsbD (12 + j - 8) = false := BitVec.getLsbD_of_ge _ _ (by omega)
    rw [getLsbD_statusWord s (by omega), hcode]
    grind

/-- R213. -/
theorem retryOf_iff_errCode (e : Err) : retryOf e = true ↔ (errCode e).toNat ∈ [1, 2, 3, 4] := by
  cases e <;> decide

theorem errCode_le_eight (e : Err) : (errCode e).toNat ≤ 8 := by
  cases e <;> decide

/-- Settles O43: each flag is one bit of `getLsbD_statusWord`; RETRY and the codes go by the cases of ERR. -/
theorem statusLayout : Obligations.StatusLayout := by
  unfold Obligations.StatusLayout
  intro s
  have hretry : s.statusWord.getLsbD 6 = retryOf s.err := by
    rw [getLsbD_statusWord s (by decide)]
    simp
  refine ⟨?_, ?_, ?_, ?_, ?_, ?_, hretry, ?_, statusWord_err s, statusWord_reserved s, s.busRead_offsetOf .status, ?retry, ?codes,
    rfl⟩
  case retry => rw [hretry, statusWord_err]; exact retryOf_iff_errCode s.err
  case codes => rw [statusWord_err]; exact errCode_le_eight s.err
  all_goals
    rw [getLsbD_statusWord s (by decide)]
    simp

/-! ### The illegal OPC -/

/-- R217: the last turn of a command whose OPC is illegal is `raise ILLEGAL_OPCODE`. -/
theorem step_of_illegal {s : State} {w : Word} {left : Nat} (he : s.engine = .running (w.setWidth 16) left) (hl : left ≤ 1)
    (h : w.extractLsb' 0 8 ∉ legalOpcodes) : step s = .next (s.raise .illegalOpcode) := by
  have ht : s.turn = .completion (w.setWidth 16) := (turn_of_running he).trans (if_pos hl)
  have hd : decodeLatch (w.setWidth 16) = .error (.illegalOpcode (w.extractLsb' 0 8)) := decodeCommand_of_illegal h
  simp only [step, ht, hd]
  rfl

/-- Settles O6: acceptance does not look at the OPC, and the completion of an illegal one is a raise. -/
theorem illegalOpcodeIsAcceptedAndCompletes : Obligations.IllegalOpcodeIsAcceptedAndCompletes := by
  unfold Obligations.IllegalOpcodeIsAcceptedAndCompletes
  refine fun s w h => ⟨fun hi => ⟨Config.opLatency s.draws (w.setWidth 16), Nat.le_add_left 1 _, ?_⟩,
    fun left he hl => step_of_illegal he hl h⟩
  have hw := s.busWrite_offsetOf .cmd w
  rwa [writeReg_of_idle hi] at hw

/-! ### Which operation reports which code -/

/-- The outcome is a completion without an error, or with one of `errs`, RES = 0 and RESULT = 0 but for a checksum mismatch
(R211, R212). -/
inductive Reports (errs : List Err) : Host.Outcome State Fault Refusal → Prop
  | noError (u : State) (b : Bool) (w : Word) : Reports errs (.next (u.finish .none b w))
  | error (u : State) {e : Err} (w : Word) (listed : e ∈ errs) (zero : e ≠ .checksumMismatch → w = 0#32) :
      Reports errs (.next (u.finish e false w))

theorem reports_raise {errs : List Err} (s : State) {e : Err} (he : e ∈ errs) : Reports errs (.next (s.raise e)) :=
  .error s 0#32 he fun _ => rfl

theorem reports_failParse {errs : List Err} (s : State) {e : Err} (he : e ∈ errs) :
    Reports errs (.next (s.failParse e 0#32)) :=
  .error _ 0#32 he fun _ => rfl

theorem reports_mismatch {errs : List Err} (s : State) (w : Word) (he : .checksumMismatch ∈ errs) :
    Reports errs (.next (s.failParse .checksumMismatch w)) :=
  .error _ w he fun h => absurd rfl h

theorem reports_endDecode {errs : List Err} (s : State) (odd trunc : Bool) (r : Except (Reason × Fin 32) DecodeWork)
    (he : .decodeInconsistency ∈ errs) : Reports errs (.next (s.endDecode odd trunc r)) := by
  cases r with
  | ok work => exact .noError _ true _
  | error stop => exact reports_raise _ he

theorem ckCheck8_reports (sel : Sel) (s : State) : Reports [.noResponse] (exec (.ckCheck8 sel) s) := by
  cases h : (s.selLen sel).val with
  | zero => exact exec_ckCheck8_of_empty h ▸ reports_raise s (by decide)
  | succ n => exact exec_ckCheck8_of_len h ▸ .noError s _ _

theorem ckCheck16_reports (sel : Sel) (s : State) : Reports [.noResponse, .incomplete] (exec (.ckCheck16 sel) s) := by
  match h : (s.selLen sel).val with
  | 0 => exact exec_ckCheck16_of_empty h ▸ reports_raise s (by decide)
  | 1 => exact exec_ckCheck16_of_one h ▸ reports_raise s (by decide)
  | n + 2 => exact exec_ckCheck16_of_len h ▸ .noError s _ _

theorem execCkAppend8_reports (sel : Sel) (s : State) : Reports [.bufferOverflow] (execCkAppend8 sel s) := by
  obtain ⟨-, h⟩ | ⟨-, h⟩ := execCkAppend8_cases sel s <;> rw [h]
  · exact reports_raise s (by decide)
  · exact .noError _ _ _

theorem execCkAppend16_reports (sel : Sel) (s : State) : Reports [.bufferOverflow] (execCkAppend16 sel s) := by
  obtain ⟨-, h⟩ | ⟨-, h⟩ := execCkAppend16_cases sel s <;> rw [h]
  · exact reports_raise s (by decide)
  · exact .noError _ _ _

theorem mbParse_reports (s : State) : Reports [.noResponse, .incomplete, .checksumMismatch] (exec .mbParse s) := by
  obtain hshort | hwhole := lt_or_ge s.rxlen.val s.mbFrameLen
  · rw [exec_mbParse_of_short hshort]
    exact reports_failParse s (by split <;> decide)
  by_cases hv : s.MbTrailerValid
  · exact exec_mbParse_of_valid hwhole hv ▸ .noError _ _ _
  · exact exec_mbParse_of_mismatch hwhole hv ▸ reports_mismatch s _ (by decide)

theorem vbParse_reports (c : Byte) (s : State) :
    Reports [.noResponse, .tooShort, .checksumMismatch] (exec (.vbParse c) s) := by
  obtain hshort | hlong := lt_or_ge s.rxlen.val (s.vbBound c)
  · rw [exec_vbParse_of_short hshort]
    exact reports_failParse s (by split <;> decide)
  rw [exec_vbParse_of_long hlong]
  split
  · exact .noError _ _ _
  · exact reports_mismatch s _ (by decide)

theorem execFdDecodeMb_reports (s : State) : Reports [.noPayload, .decodeInconsistency] (execFdDecodeMb s) := by
  unfold execFdDecodeMb
  split
  · exact reports_raise s (by decide)
  · exact reports_endDecode s _ _ _ (by decide)

theorem execFdDecodeVb_reports (s : State) : Reports [.noPayload, .decodeInconsistency] (execFdDecodeVb s) := by
  unfold execFdDecodeVb
  split
  · exact reports_raise s (by decide)
  · exact reports_endDecode s _ _ _ (by decide)

/-- R211: an operation reports no code but those listed for it. -/
theorem exec_reports (i : Instr) (s : State) : Reports (mayRaise i) (exec i s) := by
  cases i with
  | nop | ckSum8 _ | ckCrc16 _ | mbBuild | vbBuild _ | vbMinlen _ | scClassMb | scClassVb => exact .noError _ _ _
  | ckCheck8 sel => exact ckCheck8_reports sel s
  | ckCheck16 sel => exact ckCheck16_reports sel s
  | ckAppend8 sel => exact execCkAppend8_reports sel s
  | ckAppend16 sel => exact execCkAppend16_reports sel s
  | mbParse => exact mbParse_reports s
  | vbParse c => exact vbParse_reports c s
  | fdDecodeMb => exact execFdDecodeMb_reports s
  | fdDecodeVb => exact execFdDecodeVb_reports s

/-- Settles O8: a completion without an error has nothing to show, one with an error is listed. -/
theorem errorsAreRaisedOnlyAsListed : Obligations.ErrorsAreRaisedOnlyAsListed := by
  unfold Obligations.ErrorsAreRaisedOnlyAsListed
  intro i s t h herr
  have hreports := exec_reports i s
  rw [h] at hreports
  cases hreports with
  | noError u b w => exact absurd rfl herr
  | error u w listed zero => exact ⟨listed, rfl, zero⟩

end Sys2Proof.Machine
end

section
/-! PROOF. Buffer bytes at or above the lengths (10_state.md R46, 93_implementation_defined.md U1): two states that differ only in
them run every operation to states that differ only in them. -/

namespace Sys2Proof.Machine

/-- The two states differ only in buffer bytes at or above the lengths, in whatever memory and draw give them. -/
structure SameFilled (s t : State) : Prop where
  rest : ∃ m d, t = { s with mem := m, bufDraw := d }
  bytes : ∀ sel, ∀ j < (s.selLen sel).val, t.selByte sel j = s.selByte sel j

/-! ### What such states have in common -/

section Reads
variable {s t : State} (h : SameFilled s t)
include h

/-- What looks at neither the memory nor the draw. -/
theorem SameFilled.congr {α : Type} (f : State → α) (hf : ∀ m d, f { s with mem := m, bufDraw := d } = f s) : f t = f s := by
  obtain ⟨m, d, rfl⟩ := h.rest
  exact hf m d

theorem SameFilled.selLen (sel : Sel) : t.selLen sel = s.selLen sel :=
  h.congr (·.selLen sel) fun _ _ => by cases sel <;> rfl

theorem SameFilled.rxlen : t.rxlen = s.rxlen := h.selLen .rxb

theorem SameFilled.mbck : t.mbck = s.mbck := h.congr (·.mbck) fun _ _ => rfl

theorem SameFilled.pv : t.pv = s.pv := h.congr (·.pv) fun _ _ => rfl

theorem SameFilled.parse : t.parse = s.parse := h.congr (·.parse) fun _ _ => rfl

theorem SameFilled.fdesc : t.fdesc = s.fdesc := h.congr (·.fdesc) fun _ _ => rfl

theorem SameFilled.rxByte {j : Nat} (hj : j < s.rxlen.val) : t.rxByte j = s.rxByte j :=
  h.bytes .rxb j hj

/-- A read that ends within the length. -/
theorem SameFilled.readBytes {sel : Sel} {k n : Nat} (hn : k + n ≤ (s.selLen sel).val) :
    t.readBytes (selBase sel + k) n = s.readBytes (selBase sel + k) n :=
  State.readBytes_congr s t _ n fun j hj => by
    have hbyte := h.bytes sel (k + j) (by omega)
    rwa [State.selByte, State.selByte, ← Nat.add_assoc] at hbyte

theorem SameFilled.selBytes {sel : Sel} {n : Nat} (hn : n ≤ (s.selLen sel).val) : t.selBytes sel n = s.selBytes sel n :=
  h.readBytes (k := 0) (by omega)

end Reads

/-! ### Updates -/

theorem State.selLen_append_of_ne (s : State) {sel sel' : Sel} (bs : List Byte) (hne : sel' ≠ sel) :
    (s.append sel bs).selLen sel' = s.selLen sel' := by
  cases sel' <;> simp [State.selLen, hne.symm]

section Updates
variable {s t : State} (h : SameFilled s t)
include h

/-- An update that touches no buffer and no length. -/
theorem SameFilled.update (f : State → State)
    (hf : ∀ m d, f { s with mem := m, bufDraw := d } = { f s with mem := m, bufDraw := d })
    (hmem : (f s).mem = s.mem) (hdraw : (f s).bufDraw = s.bufDraw) (hrx : (f s).rxlen = s.rxlen)
    (htx : (f s).txlen = s.txlen) : SameFilled (f s) (f t) := by
  obtain ⟨⟨m, d, rfl⟩, hbytes⟩ := h
  have hlen (sel : Sel) : (f s).selLen sel = s.selLen sel := by
    cases sel
    · exact hrx
    · exact htx
  refine ⟨⟨m, d, hf m d⟩, fun sel j hj => ?_⟩
  rw [hlen] at hj
  rw [hf]
  exact (hbytes sel j hj).trans (State.byteAt_congr s (f s) _ hmem hdraw).symm

theorem SameFilled.finish (e : Err) (b : Bool) (w : Word) : SameFilled (s.finish e b w) (t.finish e b w) :=
  h.update (·.finish e b w) (fun _ _ => rfl) rfl rfl rfl rfl

theorem SameFilled.raise (e : Err) : SameFilled (s.raise e) (t.raise e) :=
  h.finish e false 0#32

theorem SameFilled.setParse (p : ParseRegs) (pv : Pv) : SameFilled (s.setParse p pv) (t.setParse p pv) :=
  h.update (·.setParse p pv) (fun _ _ => rfl) rfl rfl rfl rfl

theorem SameFilled.failParse (e : Err) (w : Word) : SameFilled (s.failParse e w) (t.failParse e w) :=
  (h.setParse ParseRegs.zero .none).finish e false w

theorem SameFilled.setClass (c : ClassCode) : SameFilled (s.setClass c) (t.setClass c) :=
  h.update (·.setClass c) (fun _ _ => rfl) rfl rfl rfl rfl

theorem SameFilled.endDecode (odd trunc : Bool) (r : Except (Reason × Fin 32) DecodeWork) :
    SameFilled (s.endDecode odd trunc r) (t.endDecode odd trunc r) := by
  cases r with
  | ok w => exact h.update (·.endDecode odd trunc (.ok w)) (fun _ _ => rfl) rfl rfl rfl rfl
  | error x => exact h.update (·.endDecode odd trunc (.error x)) (fun _ _ => rfl) rfl rfl rfl rfl

/-- The appended bytes are the same in both states, and the bytes before them were. -/
theorem SameFilled.append (sel : Sel) (bs : List Byte) : SameFilled (s.append sel bs) (t.append sel bs) := by
  obtain ⟨m, d, rfl⟩ := h.rest
  refine ⟨by cases sel <;> exact ⟨_, _, rfl⟩, fun sel' j hj => ?_⟩
  simp only [State.selByte, State.byteAt_append, h.selLen]
  split
  case isTrue => rfl
  case isFalse hout =>
    refine h.bytes sel' j ?_
    by_cases hsel : sel' = sel
    · subst hsel
      rw [State.selLen_append] at hj
      have hlt : j < min ((s.selLen sel').val + bs.length) 512 := hj
      omega
    · rwa [State.selLen_append_of_ne s bs hsel] at hj

/-- The frame is the same in both states and fills TXB to its new length. -/
theorem SameFilled.putFrame (bs : List Byte) : SameFilled (s.putFrame bs) (t.putFrame bs) := by
  obtain ⟨⟨m, d, rfl⟩, hbytes⟩ := h
  refine ⟨⟨_, _, rfl⟩, fun sel j hj => ?_⟩
  simp only [State.selByte, State.byteAt_putFrame]
  split
  case isTrue => rfl
  case isFalse hout =>
    cases sel with
    | rxb => exact hbytes .rxb j hj
    | txb =>
      have hlt : j < min bs.length 512 := hj
      simp only [selBase] at hout
      omega

end Updates

/-! ### Operations -/

/-- The two outcomes are next states that differ only in buffer bytes at or above the lengths. -/
def EndAlike (o o' : Host.Outcome State Fault Refusal) : Prop :=
  ∃ u v, o = .next u ∧ o' = .next v ∧ SameFilled u v

theorem SameFilled.endAlike {u v : State} (h : SameFilled u v) : EndAlike (.next u) (.next v) :=
  ⟨u, v, rfl, rfl, h⟩

section Operations
variable {s t : State} (h : SameFilled s t)
include h

theorem SameFilled.ckSum8_alike (sel : Sel) : EndAlike (exec (.ckSum8 sel) s) (exec (.ckSum8 sel) t) := by
  rw [exec_ckSum8, exec_ckSum8, h.selLen, h.selBytes (by omega)]
  exact (h.finish _ _ _).endAlike

theorem SameFilled.ckCrc16_alike (sel : Sel) : EndAlike (exec (.ckCrc16 sel) s) (exec (.ckCrc16 sel) t) := by
  rw [exec_ckCrc16, exec_ckCrc16, h.selLen, h.selBytes (by omega)]
  exact (h.finish _ _ _).endAlike

theorem SameFilled.ckCheck8_alike (sel : Sel) : EndAlike (exec (.ckCheck8 sel) s) (exec (.ckCheck8 sel) t) := by
  have hlen := h.selLen sel
  cases hs : (s.selLen sel).val with
  | zero =>
    rw [exec_ckCheck8_of_empty hs, exec_ckCheck8_of_empty (hlen ▸ hs)]
    exact (h.raise _).endAlike
  | succ n =>
    rw [exec_ckCheck8_of_len hs, exec_ckCheck8_of_len (hlen ▸ hs), h.bytes sel n (by omega), h.selBytes (by omega)]
    exact (h.finish _ _ _).endAlike

theorem SameFilled.ckCheck16_alike (sel : Sel) : EndAlike (exec (.ckCheck16 sel) s) (exec (.ckCheck16 sel) t) := by
  have hlen := h.selLen sel
  match hs : (s.selLen sel).val with
  | 0 =>
    rw [exec_ckCheck16_of_empty hs, exec_ckCheck16_of_empty (hlen ▸ hs)]
    exact (h.raise _).endAlike
  | 1 =>
    rw [exec_ckCheck16_of_one hs, exec_ckCheck16_of_one (hlen ▸ hs)]
    exact (h.raise _).endAlike
  | n + 2 =>
    rw [exec_ckCheck16_of_len hs, exec_ckCheck16_of_len (hlen ▸ hs), h.bytes sel n (by omega),
      h.bytes sel (n + 1) (by omega), h.selBytes (by omega)]
    exact (h.finish _ _ _).endAlike

theorem SameFilled.ckAppend8_alike (sel : Sel) : EndAlike (execCkAppend8 sel s) (execCkAppend8 sel t) := by
  simp only [execCkAppend8, h.selLen, h.selBytes le_rfl]
  split
  · exact (h.raise _).endAlike
  · exact ((h.append sel _).finish _ _ _).endAlike

theorem SameFilled.ckAppend16_alike (sel : Sel) : EndAlike (execCkAppend16 sel s) (execCkAppend16 sel t) := by
  simp only [execCkAppend16, h.selLen, h.selBytes le_rfl]
  split
  · exact (h.raise _).endAlike
  · exact ((h.append sel _).finish _ _ _).endAlike

theorem SameFilled.mbBuild_alike : EndAlike (exec .mbBuild s) (exec .mbBuild t) := by
  have hhead : mbRequestHead t = mbRequestHead s := h.congr mbRequestHead fun _ _ => rfl
  rw [exec_mbBuild, exec_mbBuild, mbRequest, mbRequest, h.mbck, hhead]
  exact ((h.putFrame _).finish _ _ _).endAlike

theorem SameFilled.vbBuild_alike (c : Byte) : EndAlike (exec (.vbBuild c) s) (exec (.vbBuild c) t) := by
  have hhead : vbRequestHead t c = vbRequestHead s c := h.congr (vbRequestHead · c) fun _ _ => rfl
  rw [exec_vbBuild, exec_vbBuild, vbRequest, vbRequest, hhead]
  exact ((h.putFrame _).finish _ _ _).endAlike

theorem SameFilled.vbMinlen_alike (c : Byte) : EndAlike (exec (.vbMinlen c) s) (exec (.vbMinlen c) t) := by
  have hmin : t.minLen c = s.minLen c := h.congr (·.minLen c) fun _ _ => rfl
  rw [exec_vbMinlen, exec_vbMinlen, hmin]
  exact (h.finish _ _ _).endAlike

/-- Below three bytes no byte count is read; from there on both states declare the same frame. -/
theorem SameFilled.mbParse_alike : EndAlike (exec .mbParse s) (exec .mbParse t) := by
  have hrx := h.rxlen
  obtain hshort | hlong := lt_or_ge s.rxlen.val 3
  · rw [exec_mbParse_of_short (hshort.trans s.three_lt_mbFrameLen),
      exec_mbParse_of_short (hrx ▸ hshort.trans t.three_lt_mbFrameLen), hrx]
    exact (h.failParse _ _).endAlike
  · have hcount : t.mbByteCount = s.mbByteCount := congrArg BitVec.toNat (h.rxByte (by omega))
    have hframe : t.mbFrameLen = s.mbFrameLen := by rw [State.mbFrameLen, State.mbFrameLen, hcount, h.mbck]
    obtain hshort | hwhole := lt_or_ge s.rxlen.val s.mbFrameLen
    · rw [exec_mbParse_of_short hshort, exec_mbParse_of_short (by rwa [hframe, hrx]), hrx]
      exact (h.failParse _ _).endAlike
    · have hfits : 3 + s.mbByteCount + trailerLen s.mbck ≤ (s.selLen .rxb).val := hwhole
      have hbody : t.mbBody = s.mbBody := by
        rw [State.mbBody, State.mbBody, hcount]
        exact h.selBytes (sel := .rxb) (by omega)
      have hsent : t.readBytes (Config.rxBase + (3 + s.mbByteCount)) (trailerLen s.mbck) =
          s.readBytes (Config.rxBase + (3 + s.mbByteCount)) (trailerLen s.mbck) := h.readBytes (sel := .rxb) hfits
      have hregs : mbParseRegs t s.mbByteCount s.mbFrameLen = mbParseRegs s s.mbByteCount s.mbFrameLen := by
        rw [mbParseRegs, mbParseRegs, h.rxByte (by omega), h.rxByte (by omega)]
      change EndAlike (execMbParse s) (execMbParse t)
      rw [execMbParse_of_whole hwhole, execMbParse_of_whole (by rwa [hframe, hrx]), hframe, hcount, h.mbck, hbody, hsent,
        hregs]
      split
      · exact ((h.setParse _ _).finish _ _ _).endAlike
      · exact (h.failParse _ _).endAlike

theorem SameFilled.vbParse_alike (c : Byte) : EndAlike (exec (.vbParse c) s) (exec (.vbParse c) t) := by
  have hrx := h.rxlen
  have hbound : t.vbBound c = s.vbBound c := h.congr (·.vbBound c) fun _ _ => rfl
  obtain hshort | hlong := lt_or_ge s.rxlen.val (s.vbBound c)
  · rw [exec_vbParse_of_short hshort, exec_vbParse_of_short (by rwa [hbound, hrx]), hrx]
    exact (h.failParse _ _).endAlike
  · have hsix : 6 ≤ s.rxlen.val := (Nat.le_max_right _ _).trans hlong
    have hbody : t.vbBody = s.vbBody := by
      rw [State.vbBody, State.vbBody, hrx]
      exact h.selBytes (sel := .rxb) (Nat.sub_le _ _)
    have haddr : t.readBytes Config.rxBase 2 = s.readBytes Config.rxBase 2 :=
      h.selBytes (sel := .rxb) (by change 2 ≤ s.rxlen.val; omega)
    have hsrc : t.readBytes (Config.rxBase + 2) 2 = s.readBytes (Config.rxBase + 2) 2 :=
      h.readBytes (sel := .rxb) (by change 2 + 2 ≤ s.rxlen.val; omega)
    have hregs : vbParseRegs t s.rxlen.val = vbParseRegs s s.rxlen.val := by
      rw [vbParseRegs, vbParseRegs, haddr, hsrc, h.rxByte (by omega)]
    rw [exec_vbParse_of_long hlong, exec_vbParse_of_long (by rwa [hbound, hrx]), hrx, hbody, hregs,
      h.rxByte (by omega)]
    split
    · exact ((h.setParse _ _).finish _ _ _).endAlike
    · exact (h.failParse _ _).endAlike

end Operations

/-! ### Decodes -/

/-- A decode is determined by the raw fields of the descriptors it runs over. -/
theorem decodeFields_congr (t : Vector FDesc 32) {raw raw' : Fin 32 → Except Reason Nat} {l : List (Fin 32)}
    (h : ∀ i ∈ l, raw' i = raw i) (w : DecodeWork) : decodeFields t raw' l w = decodeFields t raw l w := by
  induction l generalizing w with
  | nil => rfl
  | cons i l ih =>
    obtain ⟨hi, hl⟩ := List.forall_mem_cons.1 h
    simp only [decodeFields, hi, ih hl]

/-- R75: a latched payload lies within RXLEN. -/
theorem State.Inv.payload_within {s : State} (hs : s.Inv) (hpv : s.pv ≠ .none) :
    s.parse.off.toNat + s.parse.len.toNat ≤ s.rxlen.val := by
  cases hp : s.pv with
  | none => exact absurd hp hpv
  | modbus =>
    have hm := hs.modbus hp
    obtain ⟨m, hflen, -⟩ := hm.trailer
    have hwithin := hm.within
    rw [hm.off, hm.len]
    change 3 + _ ≤ _
    omega
  | vendorB =>
    have hv := hs.vendorB hp
    have hsix := hv.atLeastSix
    rw [hv.off, hv.len]
    change 5 + _ ≤ _
    omega

section Decodes
variable {s t : State} (h : SameFilled s t) (hwithin : s.parse.off.toNat + s.parse.len.toNat ≤ s.rxlen.val)
include h hwithin

theorem SameFilled.mbRaw_eq {i : Fin 32} (hi : i.val < s.parse.len.toNat / 2) : mbRaw t i = mbRaw s i := by
  simp only [mbRaw, h.parse]
  rw [h.rxByte (by omega), h.rxByte (by omega)]

/-- A field that leaves the payload is not read. -/
theorem SameFilled.vbRaw_eq (i : Fin 32) : vbRaw t i = vbRaw s i := by
  simp only [vbRaw, h.parse, h.fdesc]
  split
  · rfl
  split
  · rfl
  case isFalse hin =>
    have hread := h.readBytes (sel := .rxb) (k := s.parse.off.toNat + s.fdesc[i].offset.toNat) (n := s.fdesc[i].width.toNat)
      (by change _ ≤ s.rxlen.val; omega)
    rw [show Config.rxBase = selBase .rxb from rfl, hread]

end Decodes

theorem SameFilled.decodePayload {s t : State} (h : SameFilled s t) {vendorB : Bool} {n : Nat} (odd trunc : Bool)
    (hraw : ∀ i ∈ indicesBelow n, fieldRaw t vendorB i = fieldRaw s vendorB i) :
    SameFilled (s.decodePayload vendorB n odd trunc) (t.decodePayload vendorB n odd trunc) := by
  rw [State.decodePayload, State.decodePayload, h.fdesc, decodeFields_congr s.fdesc hraw]
  exact h.endDecode _ _ _

theorem SameFilled.fdDecodeMb_alike {s t : State} (h : SameFilled s t) (hs : s.Inv) :
    EndAlike (exec .fdDecodeMb s) (exec .fdDecodeMb t) := by
  by_cases hpv : s.pv = .modbus
  · have hwithin := hs.payload_within (by rw [hpv]; decide)
    rw [exec_fdDecodeMb_of_pv hpv, exec_fdDecodeMb_of_pv (h.pv.trans hpv), h.parse]
    refine (h.decodePayload (vendorB := false) _ _ fun i hi => h.mbRaw_eq hwithin ?_).endAlike
    rw [mem_indicesBelow] at hi
    omega
  · obtain ⟨noPayload, -⟩ := decodeWithoutPayloadIsNoPayload s
    obtain ⟨noPayload', -⟩ := decodeWithoutPayloadIsNoPayload t
    rw [noPayload hpv, noPayload' (h.pv ▸ hpv)]
    exact (h.raise _).endAlike

theorem SameFilled.fdDecodeVb_alike {s t : State} (h : SameFilled s t) (hs : s.Inv) :
    EndAlike (exec .fdDecodeVb s) (exec .fdDecodeVb t) := by
  by_cases hpv : s.pv = .vendorB
  · have hwithin := hs.payload_within (by rw [hpv]; decide)
    rw [exec_fdDecodeVb_of_pv hpv, exec_fdDecodeVb_of_pv (h.pv.trans hpv)]
    exact (h.decodePayload (vendorB := true) _ _ fun i _ => h.vbRaw_eq hwithin i).endAlike
  · obtain ⟨-, noPayload⟩ := decodeWithoutPayloadIsNoPayload s
    obtain ⟨-, noPayload'⟩ := decodeWithoutPayloadIsNoPayload t
    rw [noPayload hpv, noPayload' (h.pv ▸ hpv)]
    exact (h.raise _).endAlike

/-! ### Every operation -/

theorem SameFilled.exec_alike {s t : State} (h : SameFilled s t) (hs : s.Inv) (i : Instr) : EndAlike (exec i s) (exec i t) := by
  cases i with
  | nop => exact (h.finish _ _ _).endAlike
  | ckSum8 sel => exact h.ckSum8_alike sel
  | ckCheck8 sel => exact h.ckCheck8_alike sel
  | ckAppend8 sel => exact h.ckAppend8_alike sel
  | ckCrc16 sel => exact h.ckCrc16_alike sel
  | ckCheck16 sel => exact h.ckCheck16_alike sel
  | ckAppend16 sel => exact h.ckAppend16_alike sel
  | mbBuild => exact h.mbBuild_alike
  | mbParse => exact h.mbParse_alike
  | vbBuild c => exact h.vbBuild_alike c
  | vbMinlen c => exact h.vbMinlen_alike c
  | vbParse c => exact h.vbParse_alike c
  | fdDecodeMb => exact h.fdDecodeMb_alike hs
  | fdDecodeVb => exact h.fdDecodeVb_alike hs
  | scClassMb =>
    have hclass : classifyMb t.scIn = classifyMb s.scIn := h.congr (classifyMb ·.scIn) fun _ _ => rfl
    rw [exec_scClassMb, exec_scClassMb, hclass]
    exact (h.setClass _).endAlike
  | scClassVb =>
    have hclass : classifyVb t.params t.scIn = classifyVb s.params s.scIn :=
      h.congr (fun u => classifyVb u.params u.scIn) fun _ _ => rfl
    rw [exec_scClassVb, exec_scClassVb, hclass]
    exact (h.setClass _).endAlike

/-- Settles O56: the two runs end alike, each with the draw it began with. -/
theorem bytesBeyondTheLengthsAreNotRead : Obligations.BytesBeyondTheLengthsAreNotRead := by
  unfold Obligations.BytesBeyondTheLengthsAreNotRead
  intro i s m d hs hrx htx
  have hsame : SameFilled s { s with mem := m, bufDraw := d } :=
    ⟨⟨m, d, rfl⟩, fun sel => match sel with
      | .rxb => hrx
      | .txb => htx⟩
  obtain ⟨t, t', hx, hx', ⟨m', d', rfl⟩, hbytes⟩ := hsame.exec_alike hs i
  have hdraw : d' = d := (exec_sameOutside hx').bufDraw
  subst hdraw
  exact ⟨t, _, hx, hx', rfl, hbytes .rxb, hbytes .txb⟩

end Sys2Proof.Machine
end

section
/-! PROOF. Whose turn a step is, and what it does (10_state.md R25, R40; 20_memory.md R84). -/

namespace Sys2Proof.Machine

/-- A command placed by its table word decodes as the table word does. -/
theorem decodeLatch_of_decodeTableWord {nbits w : Nat} {i : Instr} (h : decodeTableWord nbits w = some i) :
    decodeLatch (BitVec.ofNat 16 (w % 2 ^ nbits)) = .ok i := by
  have hlatch : (BitVec.ofNat 32 (w % 2 ^ nbits)).setWidth 16 = BitVec.ofNat 16 (w % 2 ^ nbits) :=
    BitVec.setWidth_ofNat_of_le (by decide) _
  simp only [decodeTableWord, decodeBytes, wordOfLanes_laneOf, decodeCommand, hlatch] at h
  cases hd : decodeLatch (BitVec.ofNat 16 (w % 2 ^ nbits)) with
  | ok j => simpa [hd] using h
  | error e => simp [hd] at h

/-- The end of the countdown of a legal command is its operation. -/
theorem step_of_last_turn {s : State} {p : Half} {left : Nat} {i : Instr} (he : s.engine = .running p left) (hl : left ≤ 1)
    (hd : decodeLatch p = .ok i) : step s = exec i s := by
  have ht : s.turn = .completion p := (turn_of_running he).trans (if_pos hl)
  simp only [step, ht, hd]

/-- Settles O4: the last turn of the command, and of the command that `withFetchWord` places. -/
theorem stepRunsTheDecodedOperation : Obligations.StepRunsTheDecodedOperation := by
  unfold Obligations.StepRunsTheDecodedOperation
  exact ⟨fun s p left i => step_of_last_turn,
    fun s nbits w i h => ⟨step_of_last_turn rfl le_rfl (decodeLatch_of_decodeTableWord h), rfl⟩⟩

theorem step_of_host {s : State} (h : s.turn = .host) : step s = s.tick.hostTurn := by
  simp only [step, h]

theorem tick_of_idle {s : State} (h : s.engine = .idle) : s.tick = s := by
  simp only [State.tick, h]

theorem tick_of_running {s : State} {p : Half} {left : Nat} (h : s.engine = .running p left) :
    s.tick = { s with engine := .running p (left - 1) } := by
  simp only [State.tick, h]

/-- Settles O5: every turn before the last is the host's, on the state that has ticked. -/
theorem otherTurnsAreTheHosts : Obligations.OtherTurnsAreTheHosts := by
  unfold Obligations.OtherTurnsAreTheHosts
  intro s
  have hturn {p left} (he : s.engine = .running p left) (hl : 2 ≤ left) : s.turn = .host :=
    (turn_of_running he).trans (if_neg (by omega))
  refine ⟨fun he => ?_, fun p left he hl => ?_, fun p left he hl hh => ?_⟩
  · rw [step_of_host (turn_of_idle he), tick_of_idle he]
  · rw [step_of_host (hturn he hl), tick_of_running he]
  · rw [step_host_nil (hturn he hl) hh, tick_of_running he]

end Sys2Proof.Machine
end

section
/-! PROOF. Reads over the bus (20_memory.md R74) and power-on reset (70_reset_and_hazards.md R230). -/

namespace Sys2Proof.Machine

/-! ### Reads -/

/-- Settles O37: a read keeps the answer in the variable and in the reply. -/
theorem readsHaveNoSideEffect : Obligations.ReadsHaveNoSideEffect := by
  unfold Obligations.ReadsHaveNoSideEffect
  intro s t off lanes into h
  obtain ⟨⟨⟩, -⟩ | ⟨_, _, _, d, r, ⟨⟩, hread, rfl⟩ | ⟨_, _, _, _, _, _, ⟨⟩, -⟩ | ⟨⟨⟩, -⟩ | ⟨⟨⟩, -⟩ | ⟨⟨⟩, -⟩ :=
    playMove_cases h
  exact ⟨rfl, d, r, rfl, (lookupAt_insertAt s.vars into into d).trans (if_pos rfl), hread⟩

/-! ### Power-on reset -/

theorem readReg_reset {r : Reg} (h : offsetOf r < 0x400) : State.reset.readReg r = resetWord (offsetOf r) := by
  cases r with
  | fvNum k | fvDen k | fdescCtl k | fdescScale k | cmdt k =>
    revert k
    decide
  | rxb w | txb w =>
    simp only [offsetOf] at h
    omega
  | _ => decide

/-- R230, R20: below the buffers every register reads its reset value. -/
theorem readReg_powerCycle (s : State) {r : Reg} (h : offsetOf r < 0x400) :
    s.powerCycle.readReg r = resetWord (offsetOf r) := by
  rw [← readReg_reset h]
  cases r with
  | rxb w | txb w =>
    simp only [offsetOf] at h
    omega
  | _ => rfl

theorem busRead_powerCycle (s : State) {off : Nat} (h : off < 0x400) (h4 : off % 4 = 0) (hr : ¬ reservedOffset off) :
    s.powerCycle.busRead off 0xF#4 = .ok (resetWord off, .okay) := by
  obtain ⟨r, hreg⟩ := regAt_of_not_reserved (by omega) h4 hr
  obtain rfl := (regAt_eq_some_iff h4 r).1 hreg
  rw [State.busRead_offsetOf, readReg_powerCycle s h]

/-- Reset is the power-on that takes draw number 0. -/
theorem reset_eq_powerCycle : State.reset = ({ State.reset with draws := 0 } : State).powerCycle := rfl

/-- Settles O49: reset is a power-on, and of any state a power-on leaves the reset values. -/
theorem resetValues : Obligations.ResetValues := by
  unfold Obligations.ResetValues
  refine ⟨⟨rfl, rfl, fun off h h4 hr => ?_, fun _ => rfl⟩, fun s =>
    ⟨s.powerCycle, rfl, rfl, rfl, rfl, fun off => busRead_powerCycle s, fun _ => rfl⟩⟩
  rw [reset_eq_powerCycle]
  exact busRead_powerCycle _ h h4 hr

end Sys2Proof.Machine
end

section
/-! PROOF. The pseudo-instruction `loadrx` (30_encoding.md R96): its pushes are one append, from RXB[0] on. -/

namespace Sys2Proof.Machine

theorem State.append_rxb (s : State) (bs : List Byte) : s.append .rxb bs = { s with
    mem := writeCells s.mem (Config.rxBase + s.rxlen.val) bs, rxlen := clampLen (s.rxlen.val + bs.length), pv := .none } :=
  rfl

/-- Bytes pushed one after the other are bytes appended at once. -/
theorem State.append_rxb_cons (s : State) (b : Byte) (bs : List Byte) (fits : s.rxlen.val + (b :: bs).length ≤ 512) :
    (s.append .rxb [b]).append .rxb bs = s.append .rxb (b :: bs) := by
  rw [List.length_cons] at fits
  have hlen : (clampLen (s.rxlen.val + 1)).val = s.rxlen.val + 1 := Nat.min_eq_left (by omega)
  simp only [State.append_rxb, List.length_cons, List.length_nil, Nat.zero_add, hlen, Nat.add_assoc, Nat.add_comm 1,
    writeCells]

/-- The moves of `loadrx` after its first. -/
def pushMoves (bs : List Byte) : List HostMove :=
  bs.map fun b => hostWr 0x018 (b.setWidth 32)

theorem hostLoadRx_eq (bs : List Byte) : hostLoadRx bs = hostWr 0x010 0#32 :: pushMoves bs := rfl

/-- `s` after the first move of `loadrx`. -/
def State.rxCleared (s : State) (rest : List HostMove) : State :=
  { s with rxlen := 0, pv := .none, host := rest, reply := some (.written .okay) }

/-- `s` after the pushes of `bs`. -/
def State.rxPushed (s : State) (bs : List Byte) (rest : List HostMove) : State :=
  { s.append .rxb bs with host := rest, reply := some (.written .okay) }

/-- The host's write to a register of an idle block. -/
theorem step_hostWr_of_idle {s : State} (r : Reg) {w : Word} {rest : List HostMove} (he : s.engine = .idle)
    (hh : s.host = hostWr (offsetOf r) w :: rest) :
    step s = .next { State.writeIdle { s with host := rest } w r with reply := some (.written .okay) } := by
  rw [step_host_cons (turn_of_idle he) hh, beginMove_of_idle he, playMove_hostWr,
    writeReg_of_idle (s := { s with host := rest }) he]

theorem step_clearRxlen_of_idle {s : State} {rest : List HostMove} (he : s.engine = .idle)
    (hh : s.host = hostWr 0x010 0#32 :: rest) : step s = .next (s.rxCleared rest) :=
  step_hostWr_of_idle .rxlen he hh

theorem step_pushByte_of_idle {s : State} {b : Byte} {rest : List HostMove} (he : s.engine = .idle)
    (room : s.rxlen.val < 512) (hh : s.host = hostWr 0x018 (b.setWidth 32) :: rest) :
    step s = .next (s.rxPushed [b] rest) := by
  have hbyte : (b.setWidth 32).setWidth 8 = b := BitVec.setWidth_setWidth_of_le b (by decide)
  rw [step_hostWr_of_idle .rxpush he hh, State.writeIdle, pushRx_of_room (s := { s with host := rest }) room, hbyte]
  rfl

/-- The pushes of `loadrx` make one append. -/
theorem run_pushMoves {bs : List Byte} {s : State} {rest : List HostMove} (he : s.engine = .idle)
    (fits : s.rxlen.val + bs.length ≤ 512) (hpv : s.pv = .none) (hreply : s.reply = some (.written .okay))
    (hh : s.host = pushMoves bs ++ rest) : Host.Core.run Sys2Proof.core bs.length s = .next (s.rxPushed bs rest) := by
  induction bs generalizing s with
  | nil =>
    have hlen : clampLen s.rxlen.val = s.rxlen := Fin.ext (Nat.min_eq_left fits)
    have hhost : s.host = rest := hh
    have hsame : s.rxPushed [] rest = s := by
      rw [State.rxPushed, State.append_rxb, List.length_nil, Nat.add_zero, hlen, ← hhost, ← hpv, ← hreply]
      rfl
    rw [hsame]
    rfl
  | cons b bs ih =>
    have hroom : s.rxlen.val + (bs.length + 1) ≤ 512 := fits
    have hone : s.rxlen.val + 1 ≤ 512 := by omega
    have hpush : step s = .next (s.rxPushed [b] (pushMoves bs ++ rest)) := step_pushByte_of_idle he (by omega) hh
    have hlen : (s.rxPushed [b] (pushMoves bs ++ rest)).rxlen.val = s.rxlen.val + 1 := Nat.min_eq_left hone
    refine (run_succ hpush _).trans ((ih (s := s.rxPushed [b] (pushMoves bs ++ rest)) he (by omega) rfl rfl rfl).trans ?_)
    rw [State.rxPushed, State.rxPushed, State.rxPushed, ← State.append_rxb_cons s b bs fits]
    rfl

/-- `s` after a whole `loadrx`. -/
theorem rxPushed_rxCleared (s : State) (bs : List Byte) (rest rest' : List HostMove) :
    (s.rxCleared rest).rxPushed bs rest' = { s.writeBytes Config.rxBase bs with
      rxlen := clampLen bs.length, pv := .none, host := rest', reply := some (.written .okay) } := by
  have hempty : (s.rxCleared rest).rxlen.val = 0 := rfl
  rw [State.rxPushed, State.append_rxb, hempty, Nat.zero_add]
  rfl

/-- Settles O57: RXLEN is cleared and the bytes are written from RXB[0] on. -/
theorem loadRxLoadsTheFrame : Obligations.LoadRxLoadsTheFrame := by
  unfold Obligations.LoadRxLoadsTheFrame
  intro s bs rest he fits hh
  have hclear : step s = .next (s.rxCleared (pushMoves bs ++ rest)) := step_clearRxlen_of_idle he hh
  have hempty : (s.rxCleared (pushMoves bs ++ rest)).rxlen.val = 0 := rfl
  have hpushes := run_pushMoves (s := s.rxCleared (pushMoves bs ++ rest)) he (by omega) rfl rfl rfl
  rw [rxPushed_rxCleared] at hpushes
  refine ⟨_, (run_succ hclear _).trans hpushes, rfl, Nat.min_eq_left fits, ?bytes, fun a ha => ?frame⟩
  case bytes =>
    refine (State.readBytes_congr (s.writeBytes Config.rxBase bs) _ _ _ fun _ _ => ?_).trans (State.readBytes_writeBytes ..)
    rfl
  case frame => exact (s.byteAt_writeBytes Config.rxBase a bs).trans (dif_neg ha)

end Sys2Proof.Machine
end
